-- ==== Sys2Proof/Word.lean ====
section
/-! DEFINITION. The block's data types (00_scope R12, R13, R21): unsigned bytes, 16-bit words, 32-bit registers and
20-bit host addresses. Every value is unsigned. -/

namespace Sys2Proof

/-- A byte, 0 to 255 (R13). -/
abbrev Byte := BitVec 8

/-- A 16-bit unsigned word (R21): a length, an index, a CRC, a register field. -/
abbrev Half := BitVec 16

/-- A 32-bit host register or command word (R12). -/
abbrev Word := BitVec 32

/-- A byte address of the block's 20-bit window (R12, R80). -/
abbrev Addr := BitVec 20

end Sys2Proof
end

