-- ==== Sys2Proof/Syntax.lean ====
section
/-! DEFINITION. The command set (30_encoding R112): one constructor per row of opcode_table.json. -/

namespace Sys2Proof

/-- A decoded command. `proto` is CMD.PROTO with 3 naming no protocol (R113); `req`, `xseq`, `xunit` are the option
bits (R114). All data operands come from registers and IN_BUF (R115). -/
inductive Instr where
  | lrc
  | crc16
  | crctab
  | asciiEnc
  | asciiDec
  | asciiFrame
  | rtuEnc
  | rtuDec
  | rtuEst (req : Bool)
  | rtuFrame (req : Bool)
  | tcpEnc
  | tcpValid (xseq xunit : Bool)
  | tcpDec
  | tcpFrame
  | txnClear
  | txnSetseq
  | txnSetreq (proto : BitVec 2)
  | txnGetreq (proto : BitVec 2)
  | txnSetrsp (proto : BitVec 2)
  | txnGetrsp (proto : BitVec 2)
  | txnNorsp (proto : BitVec 2)
  deriving DecidableEq, Repr

end Sys2Proof
end

