-- ==== Sys2Proof/WellFormed.lean ====
section
/-! DEFINITION. Which commands a block has. Every value of every operand field is a legal operand (R113, R114, R119), so
the one check is that a TXN command needs the TXN unit (00_scope R8, 30_encoding R117). -/

namespace Sys2Proof

/-- The commands of the TXN unit, opcodes 0x40 to 0x46 (R112). -/
def Instr.isTxn : Instr → Bool
  | .lrc | .crc16 | .crctab | .asciiEnc | .asciiDec | .asciiFrame => false
  | .rtuEnc | .rtuDec | .rtuEst _ | .rtuFrame _ => false
  | .tcpEnc | .tcpValid _ _ | .tcpDec | .tcpFrame => false
  | .txnClear | .txnSetseq | .txnSetreq _ | .txnGetreq _ | .txnSetrsp _ | .txnGetrsp _ | .txnNorsp _ => true

/-- A command of a block whose `HAS_TXN` is `hasTxn` (R8, R117). -/
def Instr.wf (hasTxn : Bool) (i : Instr) : Bool := !i.isTxn || hasTxn

end Sys2Proof
end

