-- ==== Sys2Proof/Decode.lean ====
section
/-! DEFINITION. The command word (30_encoding): format R110, opcode map R112, decode R116, encoding R120. A command word
is one 32-bit value written to CMD; it has no byte order (20_memory R86). -/

namespace Sys2Proof

/-- Why a command word is illegal (R116 to R118). -/
inductive DecodeError where
  /-- OP is not assigned, or is a TXN opcode of a block without the TXN unit (R117). -/
  | opcode
  /-- A reserved bit of the word is set (R118). -/
  | rsvd
  deriving DecidableEq, Repr

/-- OP, bits [7:0] (R110). -/
def cmdOp (w : Word) : Byte := w.extractLsb' 0 8

/-- PROTO, bits [9:8] (R110). -/
def cmdProto (w : Word) : BitVec 2 := w.extractLsb' 8 2

/-- REQ, bit 10 (R110). -/
def cmdReq (w : Word) : Bool := w.getLsbD 10

/-- XSEQ, bit 11 (R110). -/
def cmdXseq (w : Word) : Bool := w.getLsbD 11

/-- XUNIT, bit 12 (R110). -/
def cmdXunit (w : Word) : Bool := w.getLsbD 12

/-- The operation an OP value names, with the operand fields of the word (the OP column of R112). -/
def instrOf (w : Word) : Option Instr :=
  match cmdOp w with
  | 0x01#8 => some .lrc
  | 0x02#8 => some .crc16
  | 0x03#8 => some .crctab
  | 0x10#8 => some .asciiEnc
  | 0x11#8 => some .asciiDec
  | 0x12#8 => some .asciiFrame
  | 0x20#8 => some .rtuEnc
  | 0x21#8 => some .rtuDec
  | 0x22#8 => some (.rtuEst (cmdReq w))
  | 0x23#8 => some (.rtuFrame (cmdReq w))
  | 0x30#8 => some .tcpEnc
  | 0x31#8 => some (.tcpValid (cmdXseq w) (cmdXunit w))
  | 0x32#8 => some .tcpDec
  | 0x33#8 => some .tcpFrame
  | 0x40#8 => some .txnClear
  | 0x41#8 => some .txnSetseq
  | 0x42#8 => some (.txnSetreq (cmdProto w))
  | 0x43#8 => some (.txnGetreq (cmdProto w))
  | 0x44#8 => some (.txnSetrsp (cmdProto w))
  | 0x45#8 => some (.txnGetrsp (cmdProto w))
  | 0x46#8 => some (.txnNorsp (cmdProto w))
  | _ => none

/-- The bits of the word a command uses, the `used` mask of R116. -/
def usedMask : Instr → Word
  | .rtuEst _ | .rtuFrame _ => 0x000004FF#32
  | .tcpValid _ _ => 0x000018FF#32
  | .txnSetreq _ | .txnGetreq _ | .txnSetrsp _ | .txnGetrsp _ | .txnNorsp _ => 0x000003FF#32
  | .lrc | .crc16 | .crctab | .asciiEnc | .asciiDec | .asciiFrame | .rtuEnc | .rtuDec => 0x000000FF#32
  | .tcpEnc | .tcpDec | .tcpFrame | .txnClear | .txnSetseq => 0x000000FF#32

/-- `Decode(w)` of R116, for a block whose `HAS_TXN` is `hasTxn`: the opcode checks come before the reserved bits. -/
def decode (hasTxn : Bool) (w : Word) : Except DecodeError Instr :=
  match instrOf w with
  | none => .error .opcode
  | some i =>
    if i.isTxn && !hasTxn then .error .opcode
    else if w &&& ~~~(usedMask i) ≠ 0#32 then .error .rsvd
    else .ok i

/-- OP of a command (the OP column of R112). -/
def Instr.op : Instr → Byte
  | .lrc => 0x01
  | .crc16 => 0x02
  | .crctab => 0x03
  | .asciiEnc => 0x10
  | .asciiDec => 0x11
  | .asciiFrame => 0x12
  | .rtuEnc => 0x20
  | .rtuDec => 0x21
  | .rtuEst _ => 0x22
  | .rtuFrame _ => 0x23
  | .tcpEnc => 0x30
  | .tcpValid _ _ => 0x31
  | .tcpDec => 0x32
  | .tcpFrame => 0x33
  | .txnClear => 0x40
  | .txnSetseq => 0x41
  | .txnSetreq _ => 0x42
  | .txnGetreq _ => 0x43
  | .txnSetrsp _ => 0x44
  | .txnGetrsp _ => 0x45
  | .txnNorsp _ => 0x46

/-- `OP | PROTO<<8 | REQ<<10 | XSEQ<<11 | XUNIT<<12`, the encoded word of R120. -/
def packCmd (op : Byte) (proto : BitVec 2) (req xseq xunit : Bool) : Word :=
  op.setWidth 32 ||| (proto.setWidth 32 <<< 8) ||| ((BitVec.ofBool req).setWidth 32 <<< 10)
    ||| ((BitVec.ofBool xseq).setWidth 32 <<< 11) ||| ((BitVec.ofBool xunit).setWidth 32 <<< 12)

/-- The command word of a command (R120): fields the command does not use are 0. -/
def encode : Instr → Word
  | .rtuEst req => packCmd 0x22 0 req false false
  | .rtuFrame req => packCmd 0x23 0 req false false
  | .tcpValid xseq xunit => packCmd 0x31 0 false xseq xunit
  | .txnSetreq p => packCmd 0x42 p false false false
  | .txnGetreq p => packCmd 0x43 p false false false
  | .txnSetrsp p => packCmd 0x44 p false false false
  | .txnGetrsp p => packCmd 0x45 p false false false
  | .txnNorsp p => packCmd 0x46 p false false false
  | .lrc => packCmd 0x01 0 false false false
  | .crc16 => packCmd 0x02 0 false false false
  | .crctab => packCmd 0x03 0 false false false
  | .asciiEnc => packCmd 0x10 0 false false false
  | .asciiDec => packCmd 0x11 0 false false false
  | .asciiFrame => packCmd 0x12 0 false false false
  | .rtuEnc => packCmd 0x20 0 false false false
  | .rtuDec => packCmd 0x21 0 false false false
  | .tcpEnc => packCmd 0x30 0 false false false
  | .tcpDec => packCmd 0x32 0 false false false
  | .tcpFrame => packCmd 0x33 0 false false false
  | .txnClear => packCmd 0x40 0 false false false
  | .txnSetseq => packCmd 0x41 0 false false false

/-- The 32-bit word whose low `nbits` bits are `w` and whose other bits are 0. -/
def tableWord (nbits w : Nat) : Word := BitVec.ofNat 32 (w % 2 ^ nbits)

/-- What the decoder reads from an opcode-table row's word, in a block that has the TXN unit. -/
def decodeTableWord (nbits w : Nat) : Option Instr := (decode true (tableWord nbits w)).toOption

end Sys2Proof
end

