-- ==== Sys2Proof/Config.lean ====
section
/-! DEFINITION. What an implementation fixes (00_scope R6 to R11) and the free values (93 I1 to I3).
The parameters are a record of plain data that the state carries and no step changes (log 3), so that a statement over
all states holds for every configuration. -/

namespace Sys2Proof

/-- The parameters of the block (R6, R8, R9, R10). -/
structure Config where
  /-- `BUF_CAP`, the capacity of IN_BUF in bytes (R6). -/
  bufCap : Nat
  /-- `HAS_TXN`: the TXN unit exists (R8). -/
  hasTxn : Bool
  /-- `ASCII_ACCEPT_LOWER`: the ASCII decoder accepts `a` to `f` (R9). -/
  asciiLower : Bool
  /-- `TCP_RSP_CHECK_SEQ`: a TCP response's transaction id is checked (R10). -/
  rspCheckSeq : Bool
  deriving DecidableEq, Repr

/-- The defaults of R6, R8, R9 and R10. -/
def Config.default : Config where
  bufCap := 1024
  hasTxn := true
  asciiLower := true
  rspCheckSeq := true

/-- The range R6 gives `BUF_CAP`. -/
abbrev Config.Valid (c : Config) : Prop := 520 ≤ c.bufCap ∧ c.bufCap ≤ 32752

/-- `OUT_CAP = 2*BUF_CAP + 8` (R7). -/
def Config.outCap (c : Config) : Nat := 2 * c.bufCap + 8

/-- `CRC_POLY`, the reflected polynomial (R11). -/
def crcPoly : Half := 0xA001

/-- `CRC_SEED` (R11). -/
def crcSeed : Half := 0xFFFF

/-- `MAX_ADU_ASCII` and `MAX_ADU_RTU` (R11). -/
def maxAduSerial : Nat := 252

/-- `MAX_ADU_TCP` (R11). -/
def maxAduTcp : Nat := 255

/-- `TCP_MAX_LEN`, the largest length field the validator accepts (R11). -/
def tcpMaxLen : Nat := 256

/-- `TCP_MIN_LEN`, the smallest length field the framer accepts (R11). -/
def tcpMinLen : Nat := 2

/-- `EXC_GW_NO_RESPONSE` (R11). -/
def excGwNoResponse : Byte := 0x0B

/-- FREE VALUE (log 1). The byte a read of an undefined buffer byte gives, one per draw (R50, 93 I1, I2). -/
opaque Config.freeByte : Nat → Byte

/-- FREE VALUE (log 1). The word a read of an undefined frame descriptor gives, one per draw (R50, 93 I1). -/
opaque Config.freeWord : Nat → Word

/-- FREE VALUE (log 8). Whether a command that fails before any CRC still builds the table (R47, R355, 93 I3). -/
opaque Config.freeBool : Nat → Bool

end Sys2Proof
end

