-- ==== Sys2Proof/Machine/State.lean ====
section
/-! DEFINITION. The state of the block (10_state), of the host agent (20_memory R91, 60_exceptions R357), and the state
after reset (70_reset_and_hazards R380). -/

namespace Sys2Proof.Machine

/-- DOC's closed enumeration {ASCII, RTU, TCP} (R113). -/
inductive Protocol where
  | ascii
  | rtu
  | tcp
  deriving DecidableEq, Repr

/-- STATUS.ERR's kinds (R351). `none` is "the command completed". -/
inductive ErrKind where
  | none
  | badForm
  | badChecksum
  | badProtocol
  | badState
  | badCommand
  deriving DecidableEq, Repr

/-- The checks a command can fail, STATUS.REASON's names (R352). NO_TXN is never produced and is left out (I18). -/
inductive Reason where
  | short
  | start
  | odd
  | hex
  | protoId
  | lenMismatch
  | lenBig
  | seqMismatch
  | unitMismatch
  | aduMax
  | inlen
  | lrc
  | crc
  | protoTag
  | state
  | opcode
  | rsvd
  deriving DecidableEq, Repr

/-- The states of the TXN record (R48, R301). -/
inductive TxnState where
  | empty
  | requestSet
  | responseSet
  | timedOut
  deriving DecidableEq, Repr

/-- Direction of a host access (R357). -/
inductive Dir where
  | read
  | write
  deriving DecidableEq, Repr

/-- Width of a host access: "Only n = 1 and n = 4 exist" (R16). -/
inductive Width where
  | byte
  | word
  deriving DecidableEq, Repr

/-- A host access to a block address (R16, R80). -/
inductive Access where
  | readByte (a : Addr)
  | readWord (a : Addr)
  | writeByte (a : Addr) (b : Byte)
  | writeWord (a : Addr) (v : Word)
  deriving DecidableEq, Repr

/-- The faults of the machine: the two host faults (R350 class 2, R357). A host access raises them; the access changes
no state of the block, and the host agent's `replies` keep the fault for good, as R357 says, so `step` answers a next
state that records it and never stops on it (log 7). SAFE: a run that holds one is "not a correct run" (R350). -/
inductive Fault where
  /-- Raised by a host access the map does not admit (R81 to R85). Safe: nothing but the record changes. -/
  | accessFault (addr : Addr) (dir : Dir) (width : Width)
  /-- Raised by a host write, while BUSY = 1, to a location the pending command may read (R386). Safe, likewise. -/
  | hazardFault (addr : Addr) (dir : Dir) (width : Width)
  deriving DecidableEq, Repr

/-- Why a step has no meaning. No step of this model refuses: every command of the table has its effect. -/
inductive Refusal where
  /-- Raised by `exec` alone, for a command not modelled yet: none is left. Safe: the machine stops. -/
  | notModelled (mnemonic : String)
  deriving DecidableEq, Repr

/-- What a host access answers (R357, R382). -/
inductive Reply where
  /-- The byte a 1-byte read returns. -/
  | byte (b : Byte)
  /-- The word a 4-byte read returns. -/
  | word (v : Word)
  /-- An admitted write was performed. -/
  | written
  /-- The access faulted and returned no value. -/
  | fault (f : Fault)
  deriving DecidableEq, Repr

/-- An event of the total order of R91, and reset, the external event of R380. -/
inductive Event where
  /-- A host access. -/
  | access (x : Access)
  /-- The engine's step, enabled only when PENDING = 1 (R385). -/
  | engine
  /-- Power-on or the reset input (R380). -/
  | reset
  deriving DecidableEq, Repr

/-- Data by index, in one canonical form: indices strictly rising, one entry for each index ever written. What an
unlisted index reads as is no fixed value (a draw, R50), so no entry can equal it. For bytes an entry is a `Host.Cell`. -/
abbrev Memory (α : Type) := List (Nat × α)

/-- The canonical form: indices strictly rise. -/
abbrev Memory.wf {α : Type} (m : Memory α) : Prop := m.Pairwise (fun p q => p.1 < q.1)

/-- STATUS.ERR [3:0] and STATUS.REASON [15:8] (R33). TBL and BUSY are `State.tblBuilt` and `State.pending`. -/
structure Status where
  err : BitVec 4
  reason : Byte
  deriving DecidableEq, Repr

/-- The operand registers the host writes, bits [15:0] of each; bits [31:16] do not exist (R34 to R37). -/
structure OperandRegs where
  /-- IN_LEN.LEN (R34). -/
  inLen : Half
  /-- IN_OFS.OFS (R34). -/
  inOfs : Half
  /-- SEED (R35). -/
  seed : Half
  /-- PARAM: XUNIT [7:0], TIDX [15:8] (R36). -/
  param : Half
  /-- SEQ: SEQ0 [15:8], SEQ1 [7:0] (R37). -/
  seq : Half
  deriving DecidableEq, Repr

/-- The fields of FLAGS (R40). -/
structure Flags where
  remValid : Bool
  none : Bool
  drop : Bool
  est : BitVec 2
  deriving DecidableEq, Repr

/-- The result registers, which every command first clears (R38 to R42, R355), bits [15:0] of each. -/
structure OutputRegs where
  /-- RESULT.VALUE (R38). -/
  result : Half
  /-- OUT_LEN (R39). -/
  outLen : Half
  /-- FLAGS (R40). -/
  flags : Flags
  /-- FRAME_COUNT (R41). -/
  frameCount : Half
  /-- REM_START (R42). -/
  remStart : Half
  /-- REM_LEN (R42). -/
  remLen : Half
  deriving DecidableEq, Repr

/-- The TXN record (R48). It is never used when `HAS_TXN` is false (log 9). -/
structure TxnRecord where
  state : TxnState
  unit : Byte
  /-- The transaction id, two bytes in wire order. -/
  seq : Byte × Byte
  reqProto : Protocol
  reqRaw : List Byte
  reqAdu : List Byte
  rspProto : Protocol
  rspRaw : List Byte
  rspAdu : List Byte
  deriving DecidableEq, Repr

/-- The host agent (R30, R91): the events still to come, in their total order, and what its accesses answered. -/
structure HostAgent where
  /-- The model's own field (log 4): the events still to come, in the total order of R91. -/
  events : List Event
  /-- The model's own field (log 7): one reply per host access performed, oldest first; never shortened. -/
  replies : List Reply
  deriving DecidableEq, Repr

/-- The state: the block's (R31), the parameters it was built with, and the host agent's. -/
structure State where
  /-- The parameters (R6 to R10), constant (R31; log 3). CAPS reads them (R46). -/
  cfg : Config
  /-- CMD (R32). -/
  cmd : Word
  /-- PENDING, which is STATUS.BUSY (R33, R49). -/
  pending : Bool
  /-- STATUS.ERR and STATUS.REASON (R33). -/
  status : Status
  /-- TBL_BUILT, which is STATUS.TBL (R33, R47). -/
  tblBuilt : Bool
  /-- IN_LEN, IN_OFS, SEED, PARAM, SEQ (R34 to R37). -/
  opnd : OperandRegs
  /-- RESULT, OUT_LEN, FLAGS, FRAME_COUNT, REM_START, REM_LEN (R38 to R42). -/
  outs : OutputRegs
  /-- IN_BUF, the bytes written since reset, by index (R34, R50). -/
  inBuf : Memory Byte
  /-- OUT_BUF, the bytes the engine wrote, by index (R39, R50). -/
  outBuf : Memory Byte
  /-- FDESC, the descriptors the engine wrote, by number (R41, R50). -/
  fdesc : Memory Word
  /-- The TXN record, which TXN_INFO and TXN_LEN show (R43, R45, R48). -/
  txn : TxnRecord
  /-- The host agent (R30). -/
  host : HostAgent
  /-- The model's own field (log 1): how many free values have been drawn. -/
  draws : Nat
  deriving DecidableEq, Repr

/-- FLAGS after reset and at the start of every command (R40). -/
def Flags.zero : Flags where
  remValid := false
  none := false
  drop := false
  est := 0

/-- The result registers after reset and at the start of every command (R355, R380). -/
def OutputRegs.zero : OutputRegs where
  result := 0
  outLen := 0
  flags := Flags.zero
  frameCount := 0
  remStart := 0
  remLen := 0

/-- The operand registers after reset (R380). -/
def OperandRegs.reset : OperandRegs where
  inLen := 0
  inOfs := 0
  seed := 0xFFFF
  param := 0
  seq := 0

/-- The TXN record after reset, the same as after TXN_CLEAR (R48, R305). -/
def TxnRecord.reset : TxnRecord where
  state := .empty
  unit := 1
  seq := (0x00, 0x00)
  reqProto := .ascii
  reqRaw := []
  reqAdu := []
  rspProto := .ascii
  rspRaw := []
  rspAdu := []

/-- The block right after reset (R380), with the default parameters (log 3), no event to come and nothing answered. -/
def State.reset : State where
  cfg := Config.default
  cmd := 0x00000000
  pending := false
  status := { err := 0, reason := 0 }
  tblBuilt := false
  opnd := OperandRegs.reset
  outs := OutputRegs.zero
  inBuf := []
  outBuf := []
  fdesc := []
  txn := TxnRecord.reset
  host := { events := [], replies := [] }
  draws := 0

end Sys2Proof.Machine
end

