-- ==== Sys2Proof/Machine/Codec.lean ====
section
/-! DEFINITION. The pure functions of the block: checksums (41), the three codecs and the three stream scans (42, 43, 44).
They follow the pseudocode of their rules; a raise is `Except.error` with the check that failed. -/

namespace Sys2Proof.Machine

/-! ### Byte sequences (00_scope R14) -/

/-- `s[a:b]`, half-open (R14). -/
def slice (s : List Byte) (a b : Nat) : List Byte := (s.drop a).take (b - a)

/-- `find(s, x, from, to)`: the least index in the range that holds `x` (R14). -/
def find (s : List Byte) (x : Byte) (lo hi : Nat) : Option Nat :=
  (List.range' lo (hi - lo)).find? (fun i => s[i]? == some x)

/-- `sum(s)`, the natural-number sum of the bytes (R14). -/
def byteSum (s : List Byte) : Nat := (s.map BitVec.toNat).sum

/-- `':'` (R18). -/
def chColon : Byte := 0x3A

/-- CR (R18). -/
def chCr : Byte := 0x0D

/-- LF (R18). -/
def chLf : Byte := 0x0A

/-! ### Checksums (41_checksums) -/

/-- `lrc` (R151). -/
def lrc (s : List Byte) : Except Reason Byte :=
  if s.length < 2 then .error .short
  else .ok (BitVec.ofNat 8 (((byteSum s &&& 0xFF) ^^^ 0xFF) + 1))

/-- One shift of the table generation (R152). -/
def crcShift (c : Half) : Half := if c.getLsbD 0 then (c >>> 1) ^^^ crcPoly else c >>> 1

/-- `T[i]`, an entry of the CRC table (R152). -/
def crcTable (i : Byte) : Half := crcShift^[8] (i.setWidth 16)

/-- The loop body of R156: `(crc >> 8) ^ T[(crc ^ b) & 0xFF]`. -/
def crcByte (crc : Half) (b : Byte) : Half := (crc >>> 8) ^^^ crcTable ((crc ^^^ b.setWidth 16).setWidth 8)

/-- `crc16` (R156). -/
def crc16 (s : List Byte) (seed : Half) : Except Reason Half :=
  if s.length < 2 then .error .short else .ok (s.foldl crcByte seed)

/-! ### Modbus/ASCII (42_ascii) -/

/-- `D(v)`, the upper-case digit of a nibble (R181). -/
def hexDigit (v : Byte) : Byte := if v.toNat ≤ 9 then 0x30 + v else 0x41 + (v - 10)

/-- `hexU` (R181). -/
def hexU (s : List Byte) : List Byte := s.flatMap (fun b : Byte => [hexDigit (b >>> 4), hexDigit (b &&& 0x0F)])

/-- `ascii_enc` (R182). -/
def asciiEnc (s : List Byte) : Except Reason (List Byte) :=
  match lrc s with
  | .error r => .error r
  | .ok l => .ok ([chColon] ++ hexU s ++ hexU [l] ++ [chCr, chLf])

/-- `hv`, the value of a hex digit; `lower` is `ASCII_ACCEPT_LOWER` (R183). -/
def hv (lower : Bool) (c : Byte) : Option Byte :=
  if 0x30 ≤ c.toNat ∧ c.toNat ≤ 0x39 then some (c - 0x30)
  else if 0x41 ≤ c.toNat ∧ c.toNat ≤ 0x46 then some (c - 0x41 + 10)
  else if lower ∧ 0x61 ≤ c.toNat ∧ c.toNat ≤ 0x66 then some (c - 0x61 + 10)
  else none

/-- `strip_end`, the end index of a frame body (R184). -/
def stripEnd (f : List Byte) : Nat :=
  let n := f.length
  if 2 ≤ n ∧ f[n - 2]? = some chCr ∧ f[n - 1]? = some chLf then n - 2
  else if f[n - 1]? = some chCr ∨ f[n - 1]? = some chLf then n - 1
  else n

/-- The hex loop of R185 over a body of even length: `none` if a character is not a hex digit. (A body of odd length
has been refused before; its last character would have no partner.) -/
def unhex (lower : Bool) : List Byte → Option (List Byte)
  | [] => some []
  | [_] => none
  | a :: b :: rest =>
    match hv lower a, hv lower b, unhex lower rest with
    | some hi, some lo, some d => some ((16 * hi + lo) :: d)
    | _, _, _ => none

/-- `ascii_dec` (R185), its checks in the order START, ODD, HEX, SHORT, LRC. -/
def asciiDec (lower : Bool) (f : List Byte) : Except Reason (List Byte) :=
  if f.length = 0 ∨ f[0]? ≠ some chColon then .error .start
  else
    let body := slice f 1 (stripEnd f)
    if body.length % 2 = 1 then .error .odd
    else
      match unhex lower body with
      | none => .error .hex
      | some d =>
        let m := d.length
        if m < 3 then .error .short
        else
          match lrc (d.take (m - 1)) with
          | .error r => .error r
          | .ok l => if d[m - 1]? ≠ some l then .error .lrc else .ok (d.take (m - 1))

/-! ### Modbus/RTU (43_rtu) -/

/-- The CRC as it goes on the wire, `[c & 0xFF, c >> 8]` (R220). -/
def crcWire (c : Half) : List Byte := [c.setWidth 8, (c >>> 8).setWidth 8]

/-- `rtu_enc` (R221). -/
def rtuEnc (s : List Byte) : Except Reason (List Byte) :=
  match crc16 s crcSeed with
  | .error r => .error r
  | .ok c => .ok (s ++ crcWire c)

/-- Whether `rtu_enc` reaches its `TBL_BUILT <- 1` (R221): it computes a CRC. -/
def rtuEncBuilds (s : List Byte) : Bool := decide (2 ≤ s.length)

/-- `rtu_dec` (R223). -/
def rtuDec (f : List Byte) : Except Reason (List Byte) :=
  let n := f.length
  if n < 4 then .error .short
  else
    match crc16 (f.take (n - 2)) crcSeed with
    | .error r => .error r
    | .ok c => if f.drop (n - 2) ≠ crcWire c then .error .crc else .ok (f.take (n - 2))

/-- Whether `rtu_dec` reaches its `TBL_BUILT <- 1` (R223): it computes a CRC. -/
def rtuDecBuilds (f : List Byte) : Bool := decide (4 ≤ f.length)

/-- What a length estimator reports (R225, R226). -/
inductive Estimate where
  | length (k : Nat)
  | notYet
  | rest
  deriving DecidableEq, Repr

/-- `est_req` (R225). -/
def estReq (b : List Byte) : Estimate :=
  if b.length < 2 then .notYet
  else
    let fc := (b.getD 1 0).toNat
    if fc ∈ [1, 2, 3, 4, 5, 6] then .length 6
    else if fc ∈ [7, 11, 12, 17] then .length 2
    else if fc ∈ [15, 16] then
      if b.length < 7 then .notYet else .length (7 + (b.getD 6 0).toNat)
    else .rest

/-- `est_rsp` (R226). -/
def estRsp (b : List Byte) : Estimate :=
  if b.length < 2 then .notYet
  else
    let fc := b.getD 1 0
    if fc &&& 0x80 ≠ 0 then .length 3
    else if fc.toNat ∈ [1, 2, 3, 4, 11] then
      if b.length < 3 then .notYet else .length (3 + (b.getD 2 0).toNat)
    else if fc.toNat ∈ [5, 6, 15, 16] then .length 6
    else .rest

/-- The estimator CMD.REQ selects: request framing or response framing (R114, R228). -/
def estimate (req : Bool) (b : List Byte) : Estimate := if req then estReq b else estRsp b

/-! ### Modbus/TCP (44_tcp) -/

/-- `L(f)`, the 16-bit big-endian length field (R263). -/
def tcpLen (f : List Byte) : Nat := (f.getD 4 0).toNat * 256 + (f.getD 5 0).toNat

/-- `tcp_enc` with the 2-byte transaction id `t` (R261). -/
def tcpEnc (t : Byte × Byte) (s : List Byte) : Except Reason (List Byte) :=
  let n := s.length
  if n < 2 then .error .short
  else .ok ([t.1, t.2, 0x00, 0x00, BitVec.ofNat 8 (n >>> 8), BitVec.ofNat 8 (n &&& 0xFF)] ++ s)

/-- `tcp_valid` (R264), its checks in the rule's order. -/
def tcpValid (f : List Byte) (xs : Option (Byte × Byte)) (xu : Option Byte) : Except Reason Unit :=
  let n := f.length
  if n < 8 then .error .short
  else if f.getD 2 0 ≠ 0x00 ∨ f.getD 3 0 ≠ 0x00 then .error .protoId
  else if tcpLen f ≠ n - 6 then .error .lenMismatch
  else if tcpLen f > tcpMaxLen then .error .lenBig
  else if xs ≠ none ∧ some (f.getD 0 0, f.getD 1 0) ≠ xs then .error .seqMismatch
  else if xu ≠ none ∧ some (f.getD 6 0) ≠ xu then .error .unitMismatch
  else .ok ()

/-- `tcp_dec`: the transaction id and the unit+ADU (R267). -/
def tcpDec (f : List Byte) : Except Reason ((Byte × Byte) × List Byte) :=
  match tcpValid f none none with
  | .error r => .error r
  | .ok () => .ok ((f.getD 0 0, f.getD 1 0), slice f 6 f.length)

/-! ### The stream scans -/

/-- What a framer found in a buffer: frames as (position, length), the position `p` where it stopped (the remainder
starts there), and FLAGS.NONE and FLAGS.DROP. After DOC's "(None, None)" there is no remainder. -/
structure Scan where
  frames : List (Nat × Nat)
  stop : Nat
  none : Bool
  drop : Bool
  deriving DecidableEq, Repr

/-- The loop of ASCII_FRAME (R190). Each turn moves `p` past an LF, so `b.length + 1` turns are enough (R19). -/
def asciiLoop (b : List Byte) : Nat → Nat → List (Nat × Nat) → Bool → Scan
  | 0, p, frames, drop => { frames := frames, stop := p, none := false, drop := drop }
  | fuel + 1, p, frames, drop =>
    match find b chLf p b.length with
    | .none => { frames := frames, stop := p, none := false, drop := drop }
    | some j =>
      match find b chColon p (j + 1) with
      | .none => asciiLoop b fuel (j + 1) frames true
      | some s => asciiLoop b fuel (j + 1) (frames ++ [(s, j - s + 1)]) (drop || decide (s > p))

/-- The scan of ASCII_FRAME (R190). -/
def asciiScan (b : List Byte) : Scan :=
  match find b chColon 0 b.length with
  | .none => { frames := [], stop := b.length, none := true, drop := decide (b.length > 0) }
  | some p0 => asciiLoop b (b.length + 1) p0 [] (decide (p0 > 0))

/-- The loop of RTU_FRAME (R232). Each turn but the last moves `p` forward by at least 4 (R19). -/
def rtuLoop (req : Bool) (b : List Byte) : Nat → Nat → List (Nat × Nat) → Scan
  | 0, p, frames => { frames := frames, stop := p, none := false, drop := false }
  | fuel + 1, p, frames =>
    if p < b.length then
      match estimate req (slice b p b.length) with
      | .notYet => { frames := frames, stop := p, none := false, drop := false }
      | .rest => { frames := frames ++ [(p, b.length - p)], stop := b.length, none := false, drop := false }
      | .length k =>
        if b.length - p ≥ k + 2 then rtuLoop req b fuel (p + k + 2) (frames ++ [(p, k + 2)])
        else { frames := frames, stop := p, none := false, drop := false }
    else { frames := frames, stop := p, none := false, drop := false }

/-- The scan of RTU_FRAME (R232). -/
def rtuScan (req : Bool) (b : List Byte) : Scan := rtuLoop req b (b.length + 1) 0 []

/-- The loop of TCP_FRAME (R275). Each turn but the last moves `p` forward by at least 8 (R19). -/
def tcpLoop (b : List Byte) : Nat → Nat → List (Nat × Nat) → Scan
  | 0, p, frames => { frames := frames, stop := p, none := false, drop := false }
  | fuel + 1, p, frames =>
    if b.length - p < 6 then { frames := frames, stop := p, none := false, drop := false }
    else
      let r := slice b p b.length
      if r.getD 2 0 ≠ 0x00 ∨ r.getD 3 0 ≠ 0x00 ∨ tcpLen r < tcpMinLen then
        { frames := frames, stop := b.length, none := frames.isEmpty, drop := true }
      else if b.length - p < 6 + tcpLen r then { frames := frames, stop := p, none := false, drop := false }
      else tcpLoop b fuel (p + (6 + tcpLen r)) (frames ++ [(p, 6 + tcpLen r)])

/-- The scan of TCP_FRAME (R275). -/
def tcpScan (b : List Byte) : Scan := tcpLoop b (b.length + 1) 0 []

/-! ### Transaction helpers (45_transaction) -/

/-- `maxADU(p)` (R300). -/
def maxAdu : Protocol → Nat
  | .ascii => maxAduSerial
  | .rtu => maxAduSerial
  | .tcp => maxAduTcp

/-- `pad2` (R304): pad with zero bytes at the end, or keep the first two bytes. -/
def pad2 (s : List Byte) : Byte × Byte := (s.getD 0 0x00, s.getD 1 0x00)

/-- `dec_p` (R303): the transaction id, if the protocol has one, and the unit+ADU. -/
def decP (lower : Bool) (p : Protocol) (f : List Byte) : Except Reason (Option (Byte × Byte) × List Byte) :=
  match p with
  | .ascii =>
    match asciiDec lower f with
    | .error r => .error r
    | .ok d => .ok (none, d)
  | .rtu =>
    match rtuDec f with
    | .error r => .error r
    | .ok d => .ok (none, d)
  | .tcp =>
    match tcpDec f with
    | .error r => .error r
    | .ok (t, d) => .ok (some t, d)

/-- Whether `dec_p` computes a CRC (R47, R223). -/
def decBuilds (p : Protocol) (f : List Byte) : Bool :=
  match p with
  | .ascii | .tcp => false
  | .rtu => rtuDecBuilds f

/-- `enc_p` (R303), with the record's transaction id for TCP. -/
def encP (seq : Byte × Byte) (p : Protocol) (s : List Byte) : Except Reason (List Byte) :=
  match p with
  | .ascii => asciiEnc s
  | .rtu => rtuEnc s
  | .tcp => tcpEnc seq s

/-- Whether `enc_p` computes a CRC (R47, R221). -/
def encBuilds (p : Protocol) (s : List Byte) : Bool :=
  match p with
  | .ascii | .tcp => false
  | .rtu => rtuEncBuilds s

end Sys2Proof.Machine
end

