-- ==== Sys2Proof/Machine/Flags.lean ====
section
/-! DEFINITION. The codes and register words the host reads: STATUS (R33, R351, R352), FLAGS (R40), TXN_INFO (R43),
TXN_LEN (R45), CAPS (R46) and frame descriptors (R41). There are no arithmetic condition codes (R53). -/

namespace Sys2Proof.Machine

/-- STATUS.ERR's code of a kind (R351). -/
def ErrKind.code : ErrKind → BitVec 4
  | .none => 0
  | .badForm => 1
  | .badChecksum => 2
  | .badProtocol => 3
  | .badState => 4
  | .badCommand => 5

/-- STATUS.REASON's code of a failed check (R352). -/
def Reason.code : Reason → Byte
  | .short => 0x01
  | .start => 0x02
  | .odd => 0x03
  | .hex => 0x04
  | .protoId => 0x05
  | .lenMismatch => 0x06
  | .lenBig => 0x07
  | .seqMismatch => 0x08
  | .unitMismatch => 0x09
  | .aduMax => 0x0A
  | .inlen => 0x0B
  | .lrc => 0x10
  | .crc => 0x11
  | .protoTag => 0x20
  | .state => 0x30
  | .opcode => 0x40
  | .rsvd => 0x41

/-- The one kind a reason belongs to (the "kind" column of R352). -/
def Reason.kind : Reason → ErrKind
  | .short | .start | .odd | .hex | .protoId | .lenMismatch | .lenBig => .badForm
  | .seqMismatch | .unitMismatch | .aduMax | .inlen => .badForm
  | .lrc | .crc => .badChecksum
  | .protoTag => .badProtocol
  | .state => .badState
  | .opcode | .rsvd => .badCommand

/-- ERR and REASON of a command that completed (R351, R352). -/
def Status.ok : Status where
  err := ErrKind.none.code
  reason := 0x00

/-- ERR and REASON of a command that failed a check (R355). -/
def Status.failed (r : Reason) : Status where
  err := r.kind.code
  reason := r.code

/-- The STATUS word (R33): BUSY [31], TBL [16], REASON [15:8], ERR [3:0]. -/
def statusWord (s : State) : Word :=
  BitVec.ofBool s.pending ++ 0#14 ++ BitVec.ofBool s.tblBuilt ++ s.status.reason ++ 0#4 ++ s.status.err

/-- The FLAGS word (R40): EST [5:4], DROP [2], NONE [1], REM_VALID [0]. -/
def flagsWord (f : Flags) : Word :=
  0#26 ++ f.est ++ 0#1 ++ BitVec.ofBool f.drop ++ BitVec.ofBool f.none ++ BitVec.ofBool f.remValid

/-- The 2-bit WireProtocol encoding of R113, also TXN_INFO's. -/
def Protocol.code : Protocol → BitVec 2
  | .ascii => 0
  | .rtu => 1
  | .tcp => 2

/-- TXN_INFO.STATE's code (R43). -/
def TxnState.code : TxnState → BitVec 2
  | .empty => 0
  | .requestSet => 1
  | .responseSet => 2
  | .timedOut => 3

/-- TXN_INFO.REQ_PROTO: "0 while STATE = Empty" (R43). -/
def TxnRecord.reqProtoCode (t : TxnRecord) : BitVec 2 := if t.state = .empty then 0 else t.reqProto.code

/-- TXN_INFO.RSP_PROTO: "0 unless STATE = ResponseSet" (R43). -/
def TxnRecord.rspProtoCode (t : TxnRecord) : BitVec 2 := if t.state = .responseSet then t.rspProto.code else 0

/-- The TXN_INFO word (R43): SEQ0 [31:24], SEQ1 [23:16], UNIT [15:8], RSP_PROTO [5:4], REQ_PROTO [3:2], STATE [1:0]. -/
def txnInfoWord (t : TxnRecord) : Word :=
  t.seq.1 ++ t.seq.2 ++ t.unit ++ 0#2 ++ t.rspProtoCode ++ t.reqProtoCode ++ t.state.code

/-- The TXN_LEN word (R45): RSP_ADU_LEN [31:16], REQ_ADU_LEN [15:0]. -/
def txnLenWord (t : TxnRecord) : Word := BitVec.ofNat 16 t.rspAdu.length ++ BitVec.ofNat 16 t.reqAdu.length

/-- The CAPS word (R46): REV [23:20] = 1, RSP_SEQ [18], ASCII_LOWER [17], HAS_TXN [16], BUF_CAP [15:0]. -/
def capsWord (c : Config) : Word :=
  0#8 ++ 1#4 ++ 0#1 ++ BitVec.ofBool c.rspCheckSeq ++ BitVec.ofBool c.asciiLower ++ BitVec.ofBool c.hasTxn
    ++ BitVec.ofNat 16 c.bufCap

/-- A frame descriptor (R41): LEN [31:16], START [15:0]. -/
def descWord (start len : Nat) : Word := BitVec.ofNat 16 len ++ BitVec.ofNat 16 start

end Sys2Proof.Machine
end

