-- ==== Sys2Proof/Machine/Ops.lean ====
section
/-! DEFINITION. The named operations over buffers and state, and `Perform` (60_exceptions R355): the common prologue of
every command, the posting of a command error (this block's one kind of exception, R358) and the common epilogue. -/

namespace Sys2Proof.Machine

/-! ### Buffers -/

/-- The entry at an index, if one was ever written. -/
def Memory.read {α : Type} : Memory α → Nat → Option α
  | [], _ => none
  | (j, v) :: m, i => if i = j then some v else if i < j then none else Memory.read m i

/-- Writes one index and keeps the canonical form. -/
def Memory.write {α : Type} : Memory α → Nat → α → Memory α
  | [], i, x => [(i, x)]
  | (j, v) :: m, i, x =>
    if i < j then (i, x) :: (j, v) :: m
    else if i = j then (i, x) :: m
    else (j, v) :: Memory.write m i x

/-- Writes a list at consecutive indices from `i` on. -/
def Memory.writeList {α : Type} (m : Memory α) (i : Nat) : List α → Memory α
  | [] => m
  | x :: xs => Memory.writeList (Memory.write m i x) (i + 1) xs

/-! ### Free values -/

/-- Counts `n` more draws, so that every draw has a number of its own (log 1). -/
def State.tick (s : State) (n : Nat) : State := { s with draws := s.draws + n }

/-- The draw of R355 and 93 I3: TBL_BUILT is unchanged or 1. Where it is 1 already, this changes nothing but the counter. -/
def State.drawTable (s : State) : State :=
  { s with tblBuilt := s.tblBuilt || Config.freeBool s.draws, draws := s.draws + 1 }

/-! ### What a command's body may write (R51, R115) -/

/-- `TBL_BUILT <- 1` if `built` (R153). -/
def State.noteTable (s : State) (built : Bool) : State := { s with tblBuilt := s.tblBuilt || built }

/-- `RESULT.VALUE <- v` (R38). -/
def State.setResult (s : State) (v : Half) : State := { s with outs := { s.outs with result := v } }

/-- `OUT <- d`: writes OUT_BUF[0 : len(d)] and OUT_LEN (R15, R39). -/
def State.setOut (s : State) (d : List Byte) : State :=
  { s with
    outBuf := Memory.writeList s.outBuf 0 d
    outs := { s.outs with outLen := BitVec.ofNat 16 d.length } }

/-- `FLAGS.NONE <- 1` (R40). -/
def State.setNone (s : State) : State :=
  { s with outs := { s.outs with flags := { s.outs.flags with none := true } } }

/-- `FLAGS.EST <- e` (R40). -/
def State.setEst (s : State) (e : BitVec 2) : State :=
  { s with outs := { s.outs with flags := { s.outs.flags with est := e } } }

/-- Replaces the TXN record (R48). -/
def State.setTxn (s : State) (t : TxnRecord) : State := { s with txn := t }

/-- The outputs of a framer over the buffer `b` whose first byte is IN_BUF[base] (R190, R232, R275): FRAME_COUNT, FDESC,
the remainder, and FLAGS. START and REM_START are absolute IN_BUF indices (R41, R42, R390). -/
def State.setFrames (s : State) (base : Nat) (b : List Byte) (c : Scan) : State :=
  let rem := decide (c.stop < b.length)
  { s with
    fdesc := Memory.writeList s.fdesc 0 (c.frames.map (fun f => descWord (base + f.1) f.2))
    outs := { s.outs with
      frameCount := BitVec.ofNat 16 c.frames.length
      remStart := if rem then BitVec.ofNat 16 (base + c.stop) else s.outs.remStart
      remLen := if rem then BitVec.ofNat 16 (b.length - c.stop) else s.outs.remLen
      flags := { s.outs.flags with remValid := rem, none := c.none, drop := c.drop } } }

/-! ### Perform (R355) -/

/-- What a command's body gives: it completed, or it raised and the command ends at once (R17). Either way the state
carries what the body did so far. -/
inductive BodyResult where
  | done (s : State)
  | raise (r : Reason) (s : State)
  deriving DecidableEq, Repr

/-- A command's body (the command rules of 41 to 45). -/
abbrev Body := State → BodyResult

/-- The prologue: clears OUT_LEN, RESULT, FLAGS, FRAME_COUNT, REM_START and REM_LEN (R355). -/
def State.clearOutputs (s : State) : State := { s with outs := OutputRegs.zero }

/-- The epilogue: posts ERR and REASON and clears BUSY and PENDING (R355). TBL needs no posting (log 10). -/
def State.post (s : State) (st : Status) : State := { s with status := st, pending := false }

/-- What a raise leaves: OUT_BUF, FDESC and TXN as the snapshot held them, the outputs cleared; TBL_BUILT is not
restored, and draws taken stay taken (R355). `before` is the state after the prologue, `at` the state at the raise. -/
def State.rollback (before atRaise : State) : State :=
  { before with tblBuilt := atRaise.tblBuilt, draws := atRaise.draws }

/-- POSTING A COMMAND ERROR, the one exception this block has (R350, R355, R358): no state is saved, no handler runs, no
mode changes; STATUS takes the kind and the reason, and the engine goes idle. TBL_BUILT is 1 after a raise that follows a
CRC, and otherwise unchanged or 1, as a draw (R355; log 8). -/
def State.raiseError (before : State) (r : Reason) (atRaise : State) : State :=
  (State.rollback before atRaise).drawTable.post (Status.failed r)

/-- `Perform` after the decode, on a body (R355). It always answers a state: a command error is an ordinary outcome. -/
def perform (body : Body) (s : State) : State :=
  match body s.clearOutputs with
  | .done t => t.post Status.ok
  | .raise r t => s.clearOutputs.raiseError r t

/-- A body that raises at once. -/
def raiseBody (r : Reason) : Body := fun s => .raise r s

/-! ### Issue and reset -/

/-- `Issue(w)`: a CMD write while BUSY = 0 (R384). -/
def State.issue (s : State) (w : Word) : State := { s with cmd := w, pending := true }

/-- The reset event (R380): every state element of the block takes its reset value; the parameters, the host agent and
the draw counter are no part of the block's state. -/
def State.resetBlock (s : State) : State :=
  { State.reset with cfg := s.cfg, host := s.host, draws := s.draws }

/-! ### The host agent -/

/-- Takes the next event off the order. -/
def State.popEvent (s : State) (rest : List Event) : State := { s with host := { s.host with events := rest } }

/-- Records what a host access answered; a recorded fault is never cleared (R357). -/
def State.answer (s : State) (r : Reply) : State := { s with host := { s.host with replies := s.host.replies ++ [r] } }

/-- The command error a decode error raises (R116). -/
def decodeReason : DecodeError → Reason
  | .opcode => .opcode
  | .rsvd => .rsvd

end Sys2Proof.Machine
end

