-- ==== Sys2Proof/Machine/Operands.lean ====
section
/-! DEFINITION. The operand forms of a command (30_encoding R115): the input window IN (R34, R353), SEQ, PARAM.XUNIT,
PARAM.TIDX (R36, R37), CMD.PROTO (R113), and the TXN checks (R302). Values are used as the unsigned numbers they are. -/

namespace Sys2Proof.Machine

/-- IN = IN_BUF[OFS : OFS + LEN] (R15, R34). A byte never written is a draw; this takes draws `draws` to
`draws + LEN - 1`, one per byte of the window (R50, I2; log 2). -/
def State.inBytes (s : State) : List Byte :=
  (List.range s.opnd.inLen.toNat).map (fun k =>
    (s.inBuf.read (s.opnd.inOfs.toNat + k)).getD (Config.freeByte (s.draws + k)))

/-- The state after one reading of IN: its draws are taken (log 2). -/
def State.readIn (s : State) : State := s.tick s.opnd.inLen.toNat

/-- `InBound()`: the window lies in IN_BUF; the sum does not wrap (R353). -/
def State.inBound (s : State) : Bool := decide (s.opnd.inOfs.toNat + s.opnd.inLen.toNat ≤ s.cfg.bufCap)

/-- The IN bound check, before any byte of IN is read (R353). -/
def withBound (body : Body) : Body := fun s => if s.inBound then body s else .raise .inlen s

/-- A command that reads IN once: the bound check, then the body on IN. -/
def withIn (body : List Byte → Body) : Body := withBound (fun s => body s.inBytes s.readIn)

/-- SEQ as two bytes in wire order, SEQ[15:8] first (R37). -/
def State.seqPair (s : State) : Byte × Byte := ((s.opnd.seq >>> 8).setWidth 8, s.opnd.seq.setWidth 8)

/-- PARAM.XUNIT, bits [7:0] (R36). -/
def State.xunit (s : State) : Byte := s.opnd.param.setWidth 8

/-- PARAM.TIDX, bits [15:8] (R36). -/
def State.tidx (s : State) : Byte := (s.opnd.param >>> 8).setWidth 8

/-- The WireProtocol a PROTO field names; 3 names none (R113). -/
def protocolOf (p : BitVec 2) : Option Protocol :=
  if p = 0 then some .ascii else if p = 1 then some .rtu else if p = 2 then some .tcp else none

/-- TXN commands are unknown opcodes of a block without the TXN unit (R44, R117). -/
def withTxn (body : Body) : Body := fun s => if s.cfg.hasTxn then body s else .raise .opcode s

/-- The checks of R302, in their order: PROTO names a protocol, then the record's state is accepted (R301). -/
def withProto (proto : BitVec 2) (accepted : List TxnState) (body : Protocol → Body) : Body := fun s =>
  match protocolOf proto with
  | none => .raise .protoTag s
  | some p => if s.txn.state ∈ accepted then body p s else .raise .state s

/-- Ends a command with the byte sequence a codec gave, or with its error (`let f = …?; OUT <- f`). -/
def outOrRaise (r : Except Reason (List Byte)) : Body := fun s =>
  match r with
  | .error e => .raise e s
  | .ok d => .done (s.setOut d)

end Sys2Proof.Machine
end

