-- ==== Sys2Proof/Machine/Bus.lean ====
section
/-! DEFINITION. The host bus (20_memory R80 to R85, 70_reset_and_hazards R384, R386): the address map, reads, writes, the
issue of a command, and the two host faults (60_exceptions R357). -/

namespace Sys2Proof.Machine

/-- The registers of the map (R32 to R46), by name. -/
inductive Reg where
  | cmd
  | status
  | inLen
  | seed
  | param
  | seq
  | result
  | outLen
  | flags
  | frameCount
  | remStart
  | remLen
  | txnInfo
  | txnLen
  | caps
  | inOfs
  deriving DecidableEq, Repr

/-- The register at a word number of the register region: offset 4*n (the register summary of 10_state). The TXN
registers are absent without the TXN unit (R44). -/
def regAt (hasTxn : Bool) (n : Nat) : Option Reg :=
  match n with
  | 0 => some .cmd
  | 1 => some .status
  | 2 => some .inLen
  | 3 => some .seed
  | 4 => some .param
  | 5 => some .seq
  | 6 => some .result
  | 7 => some .outLen
  | 8 => some .flags
  | 9 => some .frameCount
  | 10 => some .remStart
  | 11 => some .remLen
  | 12 => if hasTxn then some .txnInfo else none
  | 13 => if hasTxn then some .txnLen else none
  | 14 => some .caps
  | 15 => some .inOfs
  | _ => none

/-- What lies at a block address. -/
inductive Loc where
  | reg (r : Reg)
  | inByte (i : Nat)
  | outByte (i : Nat)
  | desc (k : Nat)
  deriving DecidableEq, Repr

/-- The map of R80: what lies at an address, `none` for a reserved address and for a misaligned one of a word region,
both of which no access admits (R81, R84, R85). -/
def locate (c : Config) (a : Addr) : Option Loc :=
  let n := a.toNat
  if n < 0x40 then
    if n % 4 = 0 then (regAt c.hasTxn (n / 4)).map Loc.reg else none
  else if 0x10000 ≤ n ∧ n < 0x10000 + c.bufCap then some (.inByte (n - 0x10000))
  else if 0x20000 ≤ n ∧ n < 0x20000 + c.outCap then some (.outByte (n - 0x20000))
  else if 0x40000 ≤ n ∧ n < 0x40000 + 4 * c.bufCap then
    if n % 4 = 0 then some (.desc ((n - 0x40000) / 4)) else none
  else none

/-- The value of a register, with the read-as-0 fields 0 (R81). -/
def State.readReg (s : State) : Reg → Word
  | .cmd => s.cmd
  | .status => statusWord s
  | .inLen => s.opnd.inLen.setWidth 32
  | .seed => s.opnd.seed.setWidth 32
  | .param => s.opnd.param.setWidth 32
  | .seq => s.opnd.seq.setWidth 32
  | .result => s.outs.result.setWidth 32
  | .outLen => s.outs.outLen.setWidth 32
  | .flags => flagsWord s.outs.flags
  | .frameCount => s.outs.frameCount.setWidth 32
  | .remStart => s.outs.remStart.setWidth 32
  | .remLen => s.outs.remLen.setWidth 32
  | .txnInfo => txnInfoWord s.txn
  | .txnLen => txnLenWord s.txn
  | .caps => capsWord s.cfg
  | .inOfs => s.opnd.inOfs.setWidth 32

/-- The read-write registers of R81. -/
def Reg.writable : Reg → Bool
  | .cmd | .inLen | .seed | .param | .seq | .inOfs => true
  | .status | .result | .outLen | .flags | .frameCount | .remStart | .remLen | .txnInfo | .txnLen | .caps => false

/-- A write to a read-write register: bits [31:16] of an operand register are ignored (R34 to R37); a CMD write issues
the command (R384). A read-only register is left as it is (the bus faults such a write before it comes here, R81). -/
def State.writeReg (s : State) (r : Reg) (v : Word) : State :=
  match r with
  | .cmd => s.issue v
  | .inLen => { s with opnd := { s.opnd with inLen := v.setWidth 16 } }
  | .seed => { s with opnd := { s.opnd with seed := v.setWidth 16 } }
  | .param => { s with opnd := { s.opnd with param := v.setWidth 16 } }
  | .seq => { s with opnd := { s.opnd with seq := v.setWidth 16 } }
  | .inOfs => { s with opnd := { s.opnd with inOfs := v.setWidth 16 } }
  | .status | .result | .outLen | .flags | .frameCount | .remStart | .remLen | .txnInfo | .txnLen | .caps => s

/-- Answers a byte of a buffer, or a draw where it has no defined value (R50; log 1). -/
def State.answerByte (s : State) (b : Option Byte) : State :=
  match b with
  | some b => s.answer (.byte b)
  | none => (s.tick 1).answer (.byte (Config.freeByte s.draws))

/-- Answers a frame descriptor, or a draw where it has no defined value (R50; log 1). -/
def State.answerWord (s : State) (v : Option Word) : State :=
  match v with
  | some v => s.answer (.word v)
  | none => (s.tick 1).answer (.word (Config.freeWord s.draws))

/-- OUT_BUF[i], defined below OUT_LEN (R39, R83). -/
def State.outByte (s : State) (i : Nat) : Option Byte :=
  if i < s.outs.outLen.toNat then s.outBuf.read i else none

/-- FDESC[k], defined below FRAME_COUNT (R41, R85). -/
def State.descAt (s : State) (k : Nat) : Option Word :=
  if k < s.outs.frameCount.toNat then s.fdesc.read k else none

/-- A 1-byte read: IN_BUF and OUT_BUF only (R82, R83). -/
def hostReadByte (a : Addr) (s : State) : State :=
  match locate s.cfg a with
  | some (.inByte i) => s.answerByte (s.inBuf.read i)
  | some (.outByte i) => s.answerByte (s.outByte i)
  | some (.reg _) | some (.desc _) | none => s.answer (.fault (.accessFault a .read .byte))

/-- A 4-byte read: registers and FDESC only (R81, R85). -/
def hostReadWord (a : Addr) (s : State) : State :=
  match locate s.cfg a with
  | some (.reg r) => s.answer (.word (s.readReg r))
  | some (.desc k) => s.answerWord (s.descAt k)
  | some (.inByte _) | some (.outByte _) | none => s.answer (.fault (.accessFault a .read .word))

/-- A 1-byte write: IN_BUF only, and not while BUSY = 1 (R82, R386). -/
def hostWriteByte (a : Addr) (b : Byte) (s : State) : State :=
  match locate s.cfg a with
  | some (.inByte i) =>
    if s.pending then s.answer (.fault (.hazardFault a .write .byte))
    else { s with inBuf := s.inBuf.write i b }.answer .written
  | some (.reg _) | some (.outByte _) | some (.desc _) | none => s.answer (.fault (.accessFault a .write .byte))

/-- A 4-byte write: read-write registers only, and not while BUSY = 1; AccessFault takes precedence (R81, R386). -/
def hostWriteWord (a : Addr) (v : Word) (s : State) : State :=
  match locate s.cfg a with
  | some (.reg r) =>
    if r.writable then
      if s.pending then s.answer (.fault (.hazardFault a .write .word)) else (s.writeReg r v).answer .written
    else s.answer (.fault (.accessFault a .write .word))
  | some (.inByte _) | some (.outByte _) | some (.desc _) | none => s.answer (.fault (.accessFault a .write .word))

/-- A host access (R16). -/
def hostAccess (x : Access) (s : State) : State :=
  match x with
  | .readByte a => hostReadByte a s
  | .readWord a => hostReadWord a s
  | .writeByte a b => hostWriteByte a b s
  | .writeWord a v => hostWriteWord a v s

end Sys2Proof.Machine
end

