-- ==== Sys2Proof/Machine/Ascii.lean ====
section
/-! DEFINITION. The ASC unit's commands: ASCII_ENC (R182), ASCII_DEC (R186), ASCII_FRAME (R190). -/

namespace Sys2Proof.Machine

/-- The body of ASCII_ENC (R182). -/
def bodyAsciiEnc : Body := withIn (fun f => outOrRaise (asciiEnc f))

/-- ASCII_ENC (R182). -/
def execAsciiEnc (s : State) : Host.Outcome State Fault Refusal := .next (perform bodyAsciiEnc s)

/-- The body of ASCII_DEC (R186). -/
def bodyAsciiDec : Body := withIn (fun f s => outOrRaise (asciiDec s.cfg.asciiLower f) s)

/-- ASCII_DEC (R186). -/
def execAsciiDec (s : State) : Host.Outcome State Fault Refusal := .next (perform bodyAsciiDec s)

/-- The body of ASCII_FRAME (R190). -/
def bodyAsciiFrame : Body := withIn (fun b s => .done (s.setFrames s.opnd.inOfs.toNat b (asciiScan b)))

/-- ASCII_FRAME (R190). -/
def execAsciiFrame (s : State) : Host.Outcome State Fault Refusal := .next (perform bodyAsciiFrame s)

end Sys2Proof.Machine
end

