-- ==== Sys2Proof/Machine/Checksum.lean ====
section
/-! DEFINITION. The CHK unit's commands: LRC (R154), CRC16 (R155), CRCTAB (R158). -/

namespace Sys2Proof.Machine

/-- The body of LRC (R154). -/
def bodyLrc : Body := withIn (fun f s =>
  match lrc f with
  | .error e => .raise e s
  | .ok v => .done (s.setResult (v.setWidth 16)))

/-- LRC (R154). -/
def execLrc (s : State) : Host.Outcome State Fault Refusal := .next (perform bodyLrc s)

/-- The body of CRC16, seeded from SEED (R155). -/
def bodyCrc16 : Body := withIn (fun f s =>
  match crc16 f s.opnd.seed with
  | .error e => .raise e s
  | .ok c => .done ((s.noteTable true).setResult c))

/-- CRC16 (R155). -/
def execCrc16 (s : State) : Host.Outcome State Fault Refusal := .next (perform bodyCrc16 s)

/-- The body of CRCTAB; it reads no IN and checks no bound (R158). -/
def bodyCrctab : Body := fun s => .done ((s.noteTable true).setResult (crcTable s.tidx))

/-- CRCTAB (R158). -/
def execCrctab (s : State) : Host.Outcome State Fault Refusal := .next (perform bodyCrctab s)

end Sys2Proof.Machine
end

