-- ==== Sys2Proof/Machine/Rtu.lean ====
section
/-! DEFINITION. The RTU unit's commands: RTU_ENC (R222), RTU_DEC (R224), RTU_EST (R228), RTU_FRAME (R232). The codec
uses `CRC_SEED`, never the SEED register (R220). -/

namespace Sys2Proof.Machine

/-- The body of RTU_ENC (R222). -/
def bodyRtuEnc : Body := withIn (fun f s => outOrRaise (rtuEnc f) (s.noteTable (rtuEncBuilds f)))

/-- RTU_ENC (R222). -/
def execRtuEnc (s : State) : Host.Outcome State Fault Refusal := .next (perform bodyRtuEnc s)

/-- The body of RTU_DEC (R224). -/
def bodyRtuDec : Body := withIn (fun f s => outOrRaise (rtuDec f) (s.noteTable (rtuDecBuilds f)))

/-- RTU_DEC (R224). -/
def execRtuDec (s : State) : Host.Outcome State Fault Refusal := .next (perform bodyRtuDec s)

/-- The body of RTU_EST (R228). -/
def bodyRtuEst (req : Bool) : Body := withIn (fun b s =>
  match estimate req b with
  | .length k => .done ((s.setEst 0).setResult (BitVec.ofNat 16 k))
  | .notYet => .done (s.setEst 1)
  | .rest => .done (s.setEst 2))

/-- RTU_EST (R228). -/
def execRtuEst (req : Bool) (s : State) : Host.Outcome State Fault Refusal := .next (perform (bodyRtuEst req) s)

/-- The body of RTU_FRAME (R232). -/
def bodyRtuFrame (req : Bool) : Body := withIn (fun b s => .done (s.setFrames s.opnd.inOfs.toNat b (rtuScan req b)))

/-- RTU_FRAME (R232). -/
def execRtuFrame (req : Bool) (s : State) : Host.Outcome State Fault Refusal := .next (perform (bodyRtuFrame req) s)

end Sys2Proof.Machine
end

