-- ==== Sys2Proof/Machine/Tcp.lean ====
section
/-! DEFINITION. The TCP unit's commands: TCP_ENC (R262), TCP_VALID (R265), TCP_DEC (R268), TCP_FRAME (R275). -/

namespace Sys2Proof.Machine

/-- The body of TCP_ENC, with the transaction id of SEQ (R262). -/
def bodyTcpEnc : Body := withIn (fun f s => outOrRaise (tcpEnc s.seqPair f) s)

/-- TCP_ENC (R262). -/
def execTcpEnc (s : State) : Host.Outcome State Fault Refusal := .next (perform bodyTcpEnc s)

/-- The body of TCP_VALID: SEQ and PARAM.XUNIT are expected values when the option bits say so (R114, R265). -/
def bodyTcpValid (xseq xunit : Bool) : Body := withIn (fun f s =>
  match tcpValid f (if xseq then some s.seqPair else none) (if xunit then some s.xunit else none) with
  | .error e => .raise e s
  | .ok () => .done (s.setResult 1))

/-- TCP_VALID (R265). -/
def execTcpValid (xseq xunit : Bool) (s : State) : Host.Outcome State Fault Refusal :=
  .next (perform (bodyTcpValid xseq xunit) s)

/-- The body of TCP_DEC: OUT is the unit+ADU, RESULT the transaction id with its first byte high (R268). -/
def bodyTcpDec : Body := withIn (fun f s =>
  match tcpDec f with
  | .error e => .raise e s
  | .ok (t, d) => .done ((s.setOut d).setResult (t.1 ++ t.2)))

/-- TCP_DEC (R268). -/
def execTcpDec (s : State) : Host.Outcome State Fault Refusal := .next (perform bodyTcpDec s)

/-- The body of TCP_FRAME (R275). -/
def bodyTcpFrame : Body := withIn (fun b s => .done (s.setFrames s.opnd.inOfs.toNat b (tcpScan b)))

/-- TCP_FRAME (R275). -/
def execTcpFrame (s : State) : Host.Outcome State Fault Refusal := .next (perform bodyTcpFrame s)

end Sys2Proof.Machine
end

