-- ==== Sys2Proof/Machine/Txn.lean ====
section
/-! DEFINITION. The TXN unit's commands (45_transaction): TXN_CLEAR (R305), TXN_SETSEQ (R306), TXN_SETREQ (R308),
TXN_GETREQ (R310), TXN_SETRSP (R312), TXN_GETRSP (R314), TXN_NORSP (R316). The checks come in the order of R354: TXN
present, IN bound, PROTO, record state, then the command's own. -/

namespace Sys2Proof.Machine

/-- The body of TXN_CLEAR (R305). -/
def bodyTxnClear : Body := withTxn (fun s => .done (s.setTxn TxnRecord.reset))

/-- TXN_CLEAR (R305). -/
def execTxnClear (s : State) : Host.Outcome State Fault Refusal := .next (perform bodyTxnClear s)

/-- The body of TXN_SETSEQ (R306). -/
def bodyTxnSetseq : Body := withTxn (withIn (fun f s => .done (s.setTxn { s.txn with seq := pad2 f })))

/-- TXN_SETSEQ (R306). -/
def execTxnSetseq (s : State) : Host.Outcome State Fault Refusal := .next (perform bodyTxnSetseq s)

/-- TXN_SETREQ once its checks have passed: `f` is the IN it decodes; IN is read again for REQ_RAW (R308; log 2). -/
def storeRequest (p : Protocol) (f : List Byte) : Body := fun s =>
  match decP s.cfg.asciiLower p f with
  | .error e => .raise e (s.noteTable (decBuilds p f))
  | .ok (t, d) =>
    let s1 := s.noteTable (decBuilds p f)
    let adu := d.drop 1
    if adu.length > maxAdu p then .raise .aduMax s1
    else
      .done ((s1.readIn.setTxn { s1.txn with
        state := .requestSet
        unit := d.getD 0 0
        seq := t.getD s1.txn.seq
        reqProto := p
        reqRaw := s1.inBytes
        reqAdu := adu }).setResult ((d.getD 0 0).setWidth 16))

/-- The body of TXN_SETREQ (R308). -/
def bodyTxnSetreq (proto : BitVec 2) : Body :=
  withTxn (withBound (withProto proto [.empty] (fun p s => storeRequest p s.inBytes s.readIn)))

/-- TXN_SETREQ (R308). -/
def execTxnSetreq (proto : BitVec 2) (s : State) : Host.Outcome State Fault Refusal :=
  .next (perform (bodyTxnSetreq proto) s)

/-- `let f = enc_p(p, [TXN.UNIT] ++ adu)?; OUT <- f` (R310, R314). -/
def renderAdu (p : Protocol) (adu : List Byte) : Body := fun s =>
  outOrRaise (encP s.txn.seq p (s.txn.unit :: adu)) (s.noteTable (encBuilds p (s.txn.unit :: adu)))

/-- The body of TXN_GETREQ (R310). -/
def bodyTxnGetreq (proto : BitVec 2) : Body :=
  withTxn (withProto proto [.requestSet, .responseSet, .timedOut] (fun p s => renderAdu p s.txn.reqAdu s))

/-- TXN_GETREQ (R310). -/
def execTxnGetreq (proto : BitVec 2) (s : State) : Host.Outcome State Fault Refusal :=
  .next (perform (bodyTxnGetreq proto) s)

/-- TXN_SETRSP once the response's unit+ADU `d` is known: the ADU limit, then the record; IN is read again for RSP_RAW
(R312; log 2). -/
def storeResponse (p : Protocol) (d : List Byte) : Body := fun s =>
  let adu := d.drop 1
  if adu.length > maxAdu p then .raise .aduMax s
  else
    .done ((s.readIn.setTxn { s.txn with
      state := .responseSet
      rspProto := p
      rspRaw := s.inBytes
      rspAdu := adu }).setResult ((d.getD 0 0).setWidth 16))

/-- TXN_SETRSP over TCP: `tcp_valid` with the stored ids, then `d <- IN[6:len(IN)]`, IN read again (R312, R10). -/
def setrspTcp (f : List Byte) : Body := fun s =>
  match tcpValid f (if s.cfg.rspCheckSeq then some s.txn.seq else none) (some s.txn.unit) with
  | .error e => .raise e s
  | .ok () => storeResponse .tcp (slice s.inBytes 6 s.inBytes.length) s.readIn

/-- TXN_SETRSP over ASCII or RTU: the decoder, then the unit id (R312). -/
def setrspSerial (p : Protocol) (f : List Byte) : Body := fun s =>
  match decP s.cfg.asciiLower p f with
  | .error e => .raise e (s.noteTable (decBuilds p f))
  | .ok (_, d) =>
    let s1 := s.noteTable (decBuilds p f)
    if d.getD 0 0 ≠ s1.txn.unit then .raise .unitMismatch s1 else storeResponse p d s1

/-- The body of TXN_SETRSP (R312). -/
def bodyTxnSetrsp (proto : BitVec 2) : Body :=
  withTxn (withBound (withProto proto [.requestSet] (fun p s =>
    match p with
    | .tcp => setrspTcp s.inBytes s.readIn
    | .ascii => setrspSerial .ascii s.inBytes s.readIn
    | .rtu => setrspSerial .rtu s.inBytes s.readIn)))

/-- TXN_SETRSP (R312). -/
def execTxnSetrsp (proto : BitVec 2) (s : State) : Host.Outcome State Fault Refusal :=
  .next (perform (bodyTxnSetrsp proto) s)

/-- The body of TXN_GETRSP (R314). -/
def bodyTxnGetrsp (proto : BitVec 2) : Body :=
  withTxn (withProto proto [.responseSet] (fun p s => renderAdu p s.txn.rspAdu s))

/-- TXN_GETRSP (R314). -/
def execTxnGetrsp (proto : BitVec 2) (s : State) : Host.Outcome State Fault Refusal :=
  .next (perform (bodyTxnGetrsp proto) s)

/-- REQ_ADU[0], the request's function code. An ADU a request stored has one (R308); a record without one, which no run
reaches, gives a free value (log 13). -/
def requestFunction (s : State) : Byte := s.txn.reqAdu.getD 0 (Config.freeByte s.draws)

/-- The body of TXN_NORSP (R316): the gateway-timeout exception over TCP, nothing over ASCII and RTU. -/
def bodyTxnNorsp (proto : BitVec 2) : Body :=
  withTxn (withProto proto [.requestSet, .timedOut] (fun p s =>
    let s1 := s.setTxn { s.txn with state := .timedOut }
    match p with
    | .tcp => outOrRaise (tcpEnc s1.txn.seq [s1.txn.unit, requestFunction s ||| 0x80, excGwNoResponse]) (s1.tick 1)
    | .ascii => .done s1.setNone
    | .rtu => .done s1.setNone))

/-- TXN_NORSP (R316). -/
def execTxnNorsp (proto : BitVec 2) (s : State) : Host.Outcome State Fault Refusal :=
  .next (perform (bodyTxnNorsp proto) s)

end Sys2Proof.Machine
end

