-- ==== Sys2Proof/Machine/Dispatch.lean ====
section
/-! DEFINITION. The meaning of every command (30_encoding R112). -/

namespace Sys2Proof.Machine

def exec (i : Instr) (s : State) : Host.Outcome State Fault Refusal :=
  match i with
  -- CHK
  | .lrc => Sys2Proof.Machine.execLrc s
  | .crc16 => Sys2Proof.Machine.execCrc16 s
  | .crctab => Sys2Proof.Machine.execCrctab s
  -- ASC
  | .asciiEnc => Sys2Proof.Machine.execAsciiEnc s
  | .asciiDec => Sys2Proof.Machine.execAsciiDec s
  | .asciiFrame => Sys2Proof.Machine.execAsciiFrame s
  -- RTU
  | .rtuEnc => Sys2Proof.Machine.execRtuEnc s
  | .rtuDec => Sys2Proof.Machine.execRtuDec s
  | .rtuEst req => Sys2Proof.Machine.execRtuEst req s
  | .rtuFrame req => Sys2Proof.Machine.execRtuFrame req s
  -- TCP
  | .tcpEnc => Sys2Proof.Machine.execTcpEnc s
  | .tcpValid xseq xunit => Sys2Proof.Machine.execTcpValid xseq xunit s
  | .tcpDec => Sys2Proof.Machine.execTcpDec s
  | .tcpFrame => Sys2Proof.Machine.execTcpFrame s
  -- TXN
  | .txnClear => Sys2Proof.Machine.execTxnClear s
  | .txnSetseq => Sys2Proof.Machine.execTxnSetseq s
  | .txnSetreq proto => Sys2Proof.Machine.execTxnSetreq proto s
  | .txnGetreq proto => Sys2Proof.Machine.execTxnGetreq proto s
  | .txnSetrsp proto => Sys2Proof.Machine.execTxnSetrsp proto s
  | .txnGetrsp proto => Sys2Proof.Machine.execTxnGetrsp proto s
  | .txnNorsp proto => Sys2Proof.Machine.execTxnNorsp proto s

end Sys2Proof.Machine
end

