-- ==== Sys2Proof/Machine/Engine.lean ====
section
/-! DEFINITION. The engine's step (70_reset_and_hazards R385): it decodes CMD (30_encoding R116) and performs it. -/

namespace Sys2Proof.Machine

/-- `Perform(CMD)` (R355, R385): an illegal word posts BadCommand, a legal one runs. -/
def engineStep (s : State) : Host.Outcome State Fault Refusal :=
  match decode s.cfg.hasTxn s.cmd with
  | .error e => .next (perform (raiseBody (decodeReason e)) s)
  | .ok i => exec i s

/-- The engine's turn: it steps exactly when PENDING = 1, and is idle otherwise (R385, R367). -/
def engineTurn (s : State) : Host.Outcome State Fault Refusal :=
  if s.pending then engineStep s else .next s

end Sys2Proof.Machine
end

