-- ==== Sys2Proof/Machine/Step.lean ====
section
/-! DEFINITION. One step of the machine: the next event of the total order of 20_memory R91. -/

namespace Sys2Proof.Machine

/-- One step. The next event is performed; when none is left the engine takes its turn, so that a pending command is
eventually performed (R385) and an idle block stays as it is (R367; log 4, log 5). -/
def step (s : State) : Host.Outcome State Fault Refusal :=
  match s.host.events with
  | [] => engineTurn s
  | .access x :: rest => .next (hostAccess x (s.popEvent rest))
  | .engine :: rest => engineTurn (s.popEvent rest)
  | .reset :: rest => .next (s.popEvent rest).resetBlock

/-- `s` with the command of an opcode-table word issued (R384) and the engine's step as the very next event (log 6). -/
def State.withFetchWord (s : State) (nbits w : Nat) : State :=
  (s.issue (tableWord nbits w)).popEvent (.engine :: s.host.events)

end Sys2Proof.Machine
end

