-- ==== Sys2Proof/Safety.lean ====
section
/-! DEFINITION. What counts as a correct run (60_exceptions R350, 70_reset_and_hazards R383), and the invariants of the
block that claims use (10_state R33, R39 to R43, R48; 60_exceptions R351, R352). -/

namespace Sys2Proof.Machine

/-- The host faults recorded so far; nothing clears them (R357). -/
def State.hostFaults (s : State) : List Fault :=
  s.host.replies.filterMap (fun r =>
    match r with
    | .fault f => some f
    | .byte _ | .word _ | .written => none)

/-- The run so far is a correct run of a host program: no access has faulted (R350). -/
def State.CorrectSoFar (s : State) : Prop := s.hostFaults = []

/-- The event is an access of the host. -/
def Event.isAccess : Event → Bool
  | .access _ => true
  | .engine | .reset => false

/-- The two conditions of R383: the host has no further access to make, and PENDING = 0. An engine's turn or a reset may
still be listed: neither is an access. -/
def State.RunOver (s : State) : Prop := (∀ e ∈ s.host.events, e.isAccess = false) ∧ s.pending = false

/-- The run from `s` ends after `n` events, in the state `t`: the first point of the total order at which R383's two
conditions hold. What comes after that point is no part of the run. -/
def State.EndsAfter (s : State) (n : Nat) (t : State) : Prop :=
  core.run n s = .next t ∧ t.RunOver ∧ ∀ m u, m < n → core.run m s = .next u → ¬u.RunOver

/-- The buffers keep their canonical form and no index lies beyond a capacity (R34, R39, R41). -/
def State.MemoryInv (s : State) : Prop :=
  s.inBuf.wf ∧ s.outBuf.wf ∧ s.fdesc.wf ∧
  (∀ p ∈ s.inBuf, p.1 < s.cfg.bufCap) ∧
  (∀ p ∈ s.outBuf, p.1 < s.cfg.outCap) ∧
  (∀ p ∈ s.fdesc, p.1 < s.cfg.bufCap)

/-- The result registers describe defined data: the OUT_LEN bytes of OUT_BUF and the FRAME_COUNT descriptors are defined,
each descriptor and the remainder lie in IN_BUF and are not empty, both remainder registers are 0 without a remainder,
and EST = 3 is never produced (R39 to R42). -/
def State.OutputInv (s : State) : Prop :=
  s.outs.outLen.toNat ≤ s.cfg.outCap ∧
  (∀ i, i < s.outs.outLen.toNat → ∃ b, s.outBuf.read i = some b) ∧
  s.outs.frameCount.toNat ≤ s.cfg.bufCap ∧
  (∀ k, k < s.outs.frameCount.toNat → ∃ start len,
    s.fdesc.read k = some (descWord start len) ∧ 1 ≤ len ∧ start + len ≤ s.cfg.bufCap) ∧
  (if s.outs.flags.remValid then
    1 ≤ s.outs.remLen.toNat ∧ s.outs.remStart.toNat + s.outs.remLen.toNat ≤ s.cfg.bufCap
  else s.outs.remStart = 0 ∧ s.outs.remLen = 0) ∧
  s.outs.flags.est ≠ 3

/-- STATUS shows success, or a reason of R352 with the one kind it belongs to; ERR 6 to 15 and every other REASON are
never produced (R33, R351, R352). -/
def State.StatusInv (s : State) : Prop :=
  (s.status.err = 0 ∧ s.status.reason = 0) ∨
  ∃ r : Reason, s.status.err = r.kind.code ∧ s.status.reason = r.code

/-- The request part of a record that has one (R48, R300). -/
def TxnRecord.HasRequest (t : TxnRecord) (bufCap : Nat) : Prop :=
  1 ≤ t.reqAdu.length ∧ t.reqAdu.length ≤ maxAdu t.reqProto ∧ t.reqRaw.length ≤ bufCap

/-- The response part of a record that has one (R48, R300). -/
def TxnRecord.HasResponse (t : TxnRecord) (bufCap : Nat) : Prop :=
  1 ≤ t.rspAdu.length ∧ t.rspAdu.length ≤ maxAdu t.rspProto ∧ t.rspRaw.length ≤ bufCap

/-- No request is stored (R48, R305). -/
def TxnRecord.NoRequest (t : TxnRecord) : Prop :=
  t.unit = 1 ∧ t.reqProto = .ascii ∧ t.reqRaw = [] ∧ t.reqAdu = []

/-- No response is stored (R48: "absent until set"). -/
def TxnRecord.NoResponse (t : TxnRecord) : Prop := t.rspProto = .ascii ∧ t.rspRaw = [] ∧ t.rspAdu = []

/-- The record holds what its state says it holds (R48, R301). -/
def State.TxnInv (s : State) : Prop :=
  match s.txn.state with
  | .empty => s.txn.NoRequest ∧ s.txn.NoResponse
  | .requestSet => s.txn.HasRequest s.cfg.bufCap ∧ s.txn.NoResponse
  | .responseSet => s.txn.HasRequest s.cfg.bufCap ∧ s.txn.HasResponse s.cfg.bufCap
  | .timedOut => s.txn.HasRequest s.cfg.bufCap ∧ s.txn.NoResponse

/-- The invariant of the block: legal parameters (R6) and the four above. -/
def State.Inv (s : State) : Prop :=
  s.cfg.Valid ∧ s.MemoryInv ∧ s.OutputInv ∧ s.StatusInv ∧ s.TxnInv

end Sys2Proof.Machine
end

