-- ==== Sys2Proof/Certificates/Slice0/Obligations.lean ====
section
/-! DEFINITION. The statements for the provers. Each says which rule of the spec it formalises. A statement of a command's
result gives the WHOLE next state: what is not named after `with` is unchanged, so it is the command's frame as well; memory
is described through the model's read of one entry. A free counter `n` of draws (log 1) is left open in every statement. -/

namespace Sys2Proof.Claims

open Sys2Proof.Machine

/-! ### Words used by the statements -/

/-- The input window lies in IN_BUF: OFS + LEN <= BUF_CAP, without wrap-around (R353). -/
def InWindow (s : State) : Prop := s.opnd.inOfs.toNat + s.opnd.inLen.toNat ≤ s.cfg.bufCap

/-- IN is `x`, and the host has written every byte of it (R34, R381). -/
def HoldsInput (s : State) (x : List Byte) : Prop :=
  s.opnd.inLen.toNat = x.length ∧ ∀ k (h : k < x.length), s.inBuf.read (s.opnd.inOfs.toNat + k) = some x[k]

/-- The result registers as every command first clears them (R355). -/
def cleared : OutputRegs :=
  { result := 0, outLen := 0, flags := { remValid := false, none := false, drop := false, est := 0 },
    frameCount := 0, remStart := 0, remLen := 0 }

/-- `s` after a command completed with the result registers `o` and TBL_BUILT = `tbl`: ERR = 0, REASON = 0, BUSY = 0; all
else as it was (R355). -/
def completed (s : State) (o : OutputRegs) (tbl : Bool) (n : Nat) : State :=
  { s with outs := o, status := { err := 0, reason := 0 }, pending := false, tblBuilt := tbl, draws := n }

/-- The command completes with `o` in the result registers and writes no buffer and no record. -/
def Completes (i : Instr) (s : State) (o : OutputRegs) (tbl : Bool) : Prop :=
  ∃ n, exec i s = .next (completed s o tbl n)

/-- The command completes with `OUT <- d` (R15, R39) and `result` in RESULT: OUT_BUF[0 : len d] holds `d`, every other
entry of OUT_BUF is as it was, and nothing else but the result registers, STATUS and TBL changes. -/
def CompletesOut (i : Instr) (s : State) (d : List Byte) (result : Half) (tbl : Bool) : Prop :=
  ∃ n m, exec i s = .next { completed s
      { cleared with result := result, outLen := BitVec.ofNat 16 d.length } tbl n with outBuf := m } ∧
    ∀ k, m.read k = if k < d.length then d[k]? else s.outBuf.read k

/-- The command completes with the record `t` and `result` in RESULT. -/
def CompletesTxn (i : Instr) (s : State) (t : TxnRecord) (result : Half) (tbl : Bool) : Prop :=
  ∃ n, exec i s = .next { completed s { cleared with result := result } tbl n with txn := t }

/-- The command raises: it clears the result registers, posts ERR and REASON, clears BUSY, and changes nothing else but
TBL_BUILT, which becomes `TBL_BUILT or b` for a `b` that `built` allows (R355, R47). -/
def Raises (i : Instr) (s : State) (err : BitVec 4) (reason : Byte) (built : Bool → Prop) : Prop :=
  ∃ b n, built b ∧ exec i s = .next
    { s with
      outs := cleared
      status := { err := err, reason := reason }
      pending := false
      tblBuilt := s.tblBuilt || b
      draws := n }

/-- The step from `s`, `u` being `s` with the step's event taken off the order, posts ERR and REASON of a command that computed
no CRC, and changes nothing else: `u` with the result registers cleared, BUSY cleared, and TBL_BUILT unchanged or 1 (R355). -/
def StepRaises (s u : State) (err : BitVec 4) (reason : Byte) : Prop :=
  ∃ b n, step s = .next
    { u with
      outs := cleared
      status := { err := err, reason := reason }
      pending := false
      tblBuilt := u.tblBuilt || b
      draws := n }

/-- TBL_BUILT is 1: a CRC was computed (R47). -/
def Built (b : Bool) : Prop := b = true

/-- TBL_BUILT is unchanged or 1. R355 leaves that open, as a draw, for every failed command that computed no CRC (log 8). -/
def MayBuild (_ : Bool) : Prop := True

/-- TBL_BUILT is 1 if a CRC was computed, else unchanged or 1. -/
def BuiltIf (crc : Bool) (b : Bool) : Prop := crc = true → b = true

/-- The commands that read IN (R353). -/
def readsIn : Instr → Bool
  | .lrc | .crc16 | .asciiEnc | .asciiDec | .asciiFrame | .rtuEnc | .rtuDec | .rtuEst _ | .rtuFrame _ => true
  | .tcpEnc | .tcpValid _ _ | .tcpDec | .tcpFrame | .txnSetseq | .txnSetreq _ | .txnSetrsp _ => true
  | .crctab | .txnClear | .txnGetreq _ | .txnGetrsp _ | .txnNorsp _ => false

/-- The commands that use the CRC table (R47). -/
def usesCrc : Instr → Bool
  | .crc16 | .crctab | .rtuEnc | .rtuDec => true
  | .txnSetreq p | .txnGetreq p | .txnSetrsp p | .txnGetrsp p => p == 1
  | .lrc | .asciiEnc | .asciiDec | .asciiFrame | .rtuEst _ | .rtuFrame _ => false
  | .tcpEnc | .tcpValid _ _ | .tcpDec | .tcpFrame | .txnClear | .txnSetseq | .txnNorsp _ => false

/-- CMD.PROTO of a command that takes it (R113). -/
def protoOf : Instr → Option (BitVec 2)
  | .txnSetreq p | .txnGetreq p | .txnSetrsp p | .txnGetrsp p | .txnNorsp p => some p
  | .lrc | .crc16 | .crctab | .asciiEnc | .asciiDec | .asciiFrame | .rtuEnc | .rtuDec | .rtuEst _ | .rtuFrame _ => none
  | .tcpEnc | .tcpValid _ _ | .tcpDec | .tcpFrame | .txnClear | .txnSetseq => none

/-- The record states a command is accepted in (the table of R301; every state for other commands). -/
def acceptedIn : Instr → List TxnState
  | .txnSetreq _ => [.empty]
  | .txnGetreq _ => [.requestSet, .responseSet, .timedOut]
  | .txnSetrsp _ => [.requestSet]
  | .txnGetrsp _ => [.responseSet]
  | .txnNorsp _ => [.requestSet, .timedOut]
  | .lrc | .crc16 | .crctab | .asciiEnc | .asciiDec | .asciiFrame | .rtuEnc | .rtuDec | .rtuEst _ | .rtuFrame _
  | .tcpEnc | .tcpValid _ _ | .tcpDec | .tcpFrame | .txnClear | .txnSetseq =>
    [.empty, .requestSet, .responseSet, .timedOut]

/-- The record's state after a command succeeded (the table of R301; unchanged for other commands). -/
def stateAfter (old : TxnState) : Instr → TxnState
  | .txnClear => .empty
  | .txnSetreq _ => .requestSet
  | .txnSetrsp _ => .responseSet
  | .txnNorsp _ => .timedOut
  | .txnSetseq | .txnGetreq _ | .txnGetrsp _ => old
  | .lrc | .crc16 | .crctab | .asciiEnc | .asciiDec | .asciiFrame | .rtuEnc | .rtuDec | .rtuEst _ | .rtuFrame _
  | .tcpEnc | .tcpValid _ _ | .tcpDec | .tcpFrame => old

/-- The byte sum of a sequence (R14). -/
def sum (x : List Byte) : Nat := (x.map BitVec.toNat).sum

/-- The LRC as a two's-complement negation: `(256 - (sum(s) mod 256)) mod 256` (R151). -/
def lrcOf (x : List Byte) : Byte := BitVec.ofNat 8 ((256 - sum x % 256) % 256)

/-- `repeat 8 times: if c[0] = 1: c <- (c >> 1) ^ 0xA001 else: c <- c >> 1` (R152, R157). -/
def shift8 : Nat → Half → Half
  | 0, c => c
  | k + 1, c => shift8 k (if c.getLsbD 0 then (c >>> 1) ^^^ 0xA001#16 else c >>> 1)

/-- The table-driven CRC loop over `T[i] = shift8 8 i` (R152, R156). -/
def crcOf (seed : Half) (x : List Byte) : Half :=
  x.foldl (fun crc b => (crc >>> 8) ^^^ shift8 8 ((crc ^^^ b.setWidth 16) &&& 0x00FF#16)) seed

/-- The bit-serial CRC loop (R157). -/
def crcSerial (seed : Half) (x : List Byte) : Half := x.foldl (fun crc b => shift8 8 (crc ^^^ b.setWidth 16)) seed

/-- The upper-case hex digits, by value (R18, R181). -/
def digits : List Byte :=
  [0x30, 0x31, 0x32, 0x33, 0x34, 0x35, 0x36, 0x37, 0x38, 0x39, 0x41, 0x42, 0x43, 0x44, 0x45, 0x46]

/-- The lower-case hex digits `a` to `f` (R18). -/
def lowerDigits : List Byte := [0x61, 0x62, 0x63, 0x64, 0x65, 0x66]

/-- Upper-case hex text, high nibble first (R181). -/
def hexText (x : List Byte) : List Byte :=
  x.flatMap (fun b : Byte => [digits.getD (b.toNat / 16) 0, digits.getD (b.toNat % 16) 0])

/-- `c` is a hex digit of value `v`, `lower` allowing `a` to `f` (R183). -/
def HexDigit (lower : Bool) (c : Byte) (v : Nat) : Prop :=
  digits[v]? = some c ∨ (lower = true ∧ 10 ≤ v ∧ lowerDigits[v - 10]? = some c)

/-- `text` is the hex text of `d`, digit by digit (R185). -/
def HexOf (lower : Bool) (text : List Byte) (d : List Byte) : Prop :=
  text.length = 2 * d.length ∧
  ∀ k (h : k < d.length), ∃ hi lo c1 c2, text[2 * k]? = some c1 ∧ text[2 * k + 1]? = some c2 ∧
    HexDigit lower c1 hi ∧ HexDigit lower c2 lo ∧ d[k].toNat = 16 * hi + lo

/-- `body` is what lies between the leading ':' and at most one terminator: CR LF, one CR, one LF, or none (R184). -/
def BodyOf (f body : List Byte) : Prop :=
  f = [0x3A] ++ body ++ [0x0D, 0x0A] ∨
  (∃ t, (t = 0x0D ∨ t = 0x0A) ∧ f = [0x3A] ++ body ++ [t] ∧ ¬(t = 0x0A ∧ body.getLast? = some 0x0D)) ∨
  (f = [0x3A] ++ body ∧ body.getLast? ≠ some 0x0D ∧ body.getLast? ≠ some 0x0A)

/-- The bytes of a frame (position, length) in a buffer. -/
def cut (b : List Byte) (f : Nat × Nat) : List Byte := (b.drop f.1).take f.2

/-- Position `i` lies in the frame `f`. -/
def Covers (f : Nat × Nat) (i : Nat) : Prop := f.1 ≤ i ∧ i < f.1 + f.2

/-- The frames run on from `p` without a gap and end at `q`. -/
def Chain : Nat → List (Nat × Nat) → Nat → Prop
  | p, [], q => p = q
  | p, f :: fs, q => f.1 = p ∧ Chain (p + f.2) fs q

/-- A whole RTU request with its two CRC bytes, of a class est_req can size (R225, R233). -/
def WholeRequest (f : List Byte) : Prop := ∃ k, estReq f = .length k ∧ f.length = k + 2

/-- The outputs of a framer that found `c` in the buffer IN of length `len` at IN_BUF[base] (R40 to R42). -/
def framerOutputs (base len : Nat) (c : Scan) : OutputRegs :=
  { cleared with
    frameCount := BitVec.ofNat 16 c.frames.length
    flags := { remValid := decide (c.stop < len), none := c.none, drop := c.drop, est := 0 }
    remStart := if c.stop < len then BitVec.ofNat 16 (base + c.stop) else 0
    remLen := if c.stop < len then BitVec.ofNat 16 (len - c.stop) else 0 }

/-- The framer completes: its outputs are posted, FDESC[k] holds LEN << 16 | START of frame k with START absolute, every
other entry of FDESC is as it was, and nothing else but STATUS changes (R41, R42, R390). -/
def CompletesFrames (i : Instr) (s : State) (c : Scan) : Prop :=
  ∃ n m, exec i s = .next { completed s (framerOutputs s.opnd.inOfs.toNat s.inBytes.length c) s.tblBuilt n with fdesc := m } ∧
    ∀ k, m.read k = match c.frames[k]? with
      | some f => some (BitVec.ofNat 16 f.2 ++ BitVec.ofNat 16 (s.opnd.inOfs.toNat + f.1))
      | none => s.fdesc.read k

/-- A whole header of 6 bytes the TCP framer cannot use: protocol id bytes not 00 00, or a length field below 2 (R275). -/
def BadHeader (r : List Byte) : Prop :=
  ∃ t0 t1 p0 p1 l0 l1 d, r = [t0, t1, p0, p1, l0, l1] ++ d ∧ (p0 ≠ 0 ∨ p1 ≠ 0 ∨ 256 * l0.toNat + l1.toNat < 2)

/-- Fewer than the 6 bytes of a header, or a good header and fewer bytes after it than its length field says (R275). -/
def AwaitsBytes (r : List Byte) : Prop :=
  r.length < 6 ∨ ∃ t0 t1 l0 l1 d, r = [t0, t1, 0x00, 0x00, l0, l1] ++ d ∧ 2 ≤ 256 * l0.toNat + l1.toNat ∧
    d.length < 256 * l0.toNat + l1.toNat

/-- An access the map admits (R80 to R85): its width and direction are the ones of its region, and it is aligned. -/
def Admitted (c : Config) : Access → Prop
  | .readByte a =>
    (0x10000 ≤ a.toNat ∧ a.toNat < 0x10000 + c.bufCap) ∨ (0x20000 ≤ a.toNat ∧ a.toNat < 0x20000 + (2 * c.bufCap + 8))
  | .writeByte a _ => 0x10000 ≤ a.toNat ∧ a.toNat < 0x10000 + c.bufCap
  | .readWord a =>
    a.toNat % 4 = 0 ∧
    ((a.toNat < 0x40 ∧ (c.hasTxn = true ∨ (a ≠ 0x30 ∧ a ≠ 0x34))) ∨
      (0x40000 ≤ a.toNat ∧ a.toNat < 0x40000 + 4 * c.bufCap))
  | .writeWord a _ => a ∈ [0x00000, 0x00008, 0x0000C, 0x00010, 0x00014, 0x0003C]

/-- The address of an access. -/
def addrOf : Access → Addr
  | .readByte a | .readWord a | .writeByte a _ | .writeWord a _ => a

/-- The direction of an access. -/
def dirOf : Access → Dir
  | .readByte _ | .readWord _ => .read
  | .writeByte _ _ | .writeWord _ _ => .write

/-- The width of an access. -/
def widthOf : Access → Width
  | .readByte _ | .writeByte _ _ => .byte
  | .readWord _ | .writeWord _ _ => .word

/-- The state in which the host has got the reply `r` and nothing else has changed. -/
def replied (s : State) (r : Reply) : State := { s with host := { s.host with replies := s.host.replies ++ [r] } }

/-- The used bits of a command word with operation `op` (R116). -/
def usedBits (op : Byte) : Word :=
  0x000000FF#32
    ||| (if op ∈ [0x42, 0x43, 0x44, 0x45, 0x46] then 0x00000300#32 else 0)
    ||| (if op ∈ [0x22, 0x23] then 0x00000400#32 else 0)
    ||| (if op = 0x31 then 0x00001800#32 else 0)

/-- The OP column of R112. -/
def assignedOps : List Byte :=
  [0x01, 0x02, 0x03, 0x10, 0x11, 0x12, 0x20, 0x21, 0x22, 0x23, 0x30, 0x31, 0x32, 0x33, 0x40, 0x41, 0x42, 0x43, 0x44,
    0x45, 0x46]

/-- OP names an operation of the block (R112, R117). -/
def KnownOp (hasTxn : Bool) (op : Byte) : Prop :=
  op ∈ assignedOps ∧ ¬(0x40 ≤ op.toNat ∧ op.toNat ≤ 0x46 ∧ hasTxn = false)

/-- The operand fields of a decoded command are the word's fields (R114, R116). -/
def FieldsOf (w : Word) : Instr → Prop
  | .rtuEst req | .rtuFrame req => req = w.getLsbD 10
  | .tcpValid xseq xunit => xseq = w.getLsbD 11 ∧ xunit = w.getLsbD 12
  | .txnSetreq p | .txnGetreq p | .txnSetrsp p | .txnGetrsp p | .txnNorsp p => p = w.extractLsb' 8 2
  | .lrc | .crc16 | .crctab | .asciiEnc | .asciiDec | .asciiFrame | .rtuEnc | .rtuDec => True
  | .tcpEnc | .tcpDec | .tcpFrame | .txnClear | .txnSetseq => True

/-- The (match, mask) rows of opcode_table.json. -/
def opcodeRows : List (Word × Word) :=
  [(0x01, 0xFFFFFFFF), (0x02, 0xFFFFFFFF), (0x03, 0xFFFFFFFF), (0x10, 0xFFFFFFFF), (0x11, 0xFFFFFFFF),
    (0x12, 0xFFFFFFFF), (0x20, 0xFFFFFFFF), (0x21, 0xFFFFFFFF), (0x22, 0xFFFFFBFF), (0x23, 0xFFFFFBFF),
    (0x30, 0xFFFFFFFF), (0x31, 0xFFFFE7FF), (0x32, 0xFFFFFFFF), (0x33, 0xFFFFFFFF), (0x40, 0xFFFFFFFF),
    (0x41, 0xFFFFFFFF), (0x42, 0xFFFFFCFF), (0x43, 0xFFFFFCFF), (0x44, 0xFFFFFCFF), (0x45, 0xFFFFFCFF),
    (0x46, 0xFFFFFCFF)]

/-- The (ERR, REASON) pairs STATUS can show (R351, R352). -/
def statusPairs : List (BitVec 4 × Byte) :=
  [(0, 0x00), (1, 0x01), (1, 0x02), (1, 0x03), (1, 0x04), (1, 0x05), (1, 0x06), (1, 0x07), (1, 0x08), (1, 0x09),
    (1, 0x0A), (1, 0x0B), (2, 0x10), (2, 0x11), (3, 0x20), (4, 0x30), (5, 0x40), (5, 0x41)]

/-- The encoding of `s` (unit+ADU) in protocol `p` with the transaction id `id` (R180, R220, R260). -/
def frameOf (id : Byte × Byte) : Protocol → List Byte → List Byte
  | .ascii, s => [0x3A] ++ hexText s ++ hexText [lrcOf s] ++ [0x0D, 0x0A]
  | .rtu, s => s ++ [(crcOf 0xFFFF s).setWidth 8, (crcOf 0xFFFF s >>> 8).setWidth 8]
  | .tcp, s => [id.1, id.2, 0x00, 0x00, BitVec.ofNat 8 (s.length / 256), BitVec.ofNat 8 (s.length % 256)] ++ s

/-- The largest ADU the TXN unit stores (R300). -/
def aduLimit : Protocol → Nat
  | .ascii | .rtu => 252
  | .tcp => 255

/-- PROTO's code of a protocol (R113). -/
def tag : Protocol → BitVec 2
  | .ascii => 0
  | .rtu => 1
  | .tcp => 2

/-- The protocol is RTU: its codec uses the CRC table (R47). -/
def isRtu : Protocol → Bool
  | .rtu => true
  | .ascii | .tcp => false

end Sys2Proof.Claims

open Sys2Proof
open Sys2Proof.Machine
open Sys2Proof.Claims

/-! ### Decoding and encoding (30_encoding) -/

/-- Some command words, written from R110 and R112 and the examples of R120, decode to the command they stand for. -/
def Obligations.SampleWordsDecode : Prop :=
  decode true 0x00000001 = .ok .lrc ∧ decode true 0x00000012 = .ok .asciiFrame ∧
  decode true 0x00000423 = .ok (.rtuFrame true) ∧ decode true 0x00001831 = .ok (.tcpValid true true) ∧
  decode true 0x00000243 = .ok (.txnGetreq 2) ∧ decode true 0x00000342 = .ok (.txnSetreq 3) ∧
  decode false 0x00000040 = .error .opcode ∧ decode true 0x00002047 = .error .opcode ∧
  decode true 0x00002001 = .error .rsvd

/-- DECODE AND ENCODE AGREE, for every command: a word decodes to `i` exactly when `i` is a command of the block and the word
is its encoding; so decoding the encoding of a well-formed command gives it back with every operand, and no two words have
one meaning (R116, R120). -/
def Obligations.DecodeAndEncodeAgree : Prop :=
  ∀ (hasTxn : Bool) (w : Word) (i : Instr), decode hasTxn w = .ok i ↔ i.wf hasTxn = true ∧ encode i = w

/-- R116: the opcode is refused first, then the reserved bits; an accepted word gives its OP and its fields; a word is
accepted exactly when it matches a row of the opcode table. -/
def Obligations.DecodeFollowsR116 : Prop :=
  ∀ (hasTxn : Bool) (w : Word),
    (decode hasTxn w = .error .opcode ↔ ¬KnownOp hasTxn (w.extractLsb' 0 8)) ∧
    (decode hasTxn w = .error .rsvd ↔
      KnownOp hasTxn (w.extractLsb' 0 8) ∧ w &&& ~~~usedBits (w.extractLsb' 0 8) ≠ 0) ∧
    (∀ i, decode hasTxn w = .ok i → i.op = w.extractLsb' 0 8 ∧ FieldsOf w i) ∧
    ((∃ i, decode true w = .ok i) ↔ ∃ row ∈ opcodeRows, w &&& row.2 = row.1)

/-- R117, R118, R355: the engine's step on a pending command word with an illegal OP posts BadCommand(OPCODE), and on one
with a legal OP and a reserved bit BadCommand(RSVD). It clears the result registers as every command does and changes
nothing else, but for TBL_BUILT, which is unchanged or 1 as after every failed command (R355; that R355 is followed here
beside R117's "changes nothing else" is the model's reading, log 8). The engine steps when its event is the next, which is
taken off the order first, and, by the model's choice (log 5), when no event is left. -/
def Obligations.IllegalWordPostsBadCommand : Prop :=
  ∀ s u : State, s.pending = true →
    ((s.host.events = [] ∧ u = s) ∨
      ∃ rest, s.host.events = .engine :: rest ∧ u = { s with host := { s.host with events := rest } }) →
    (¬KnownOp s.cfg.hasTxn (s.cmd.extractLsb' 0 8) →
      StepRaises s u 5 0x40) ∧
    (KnownOp s.cfg.hasTxn (s.cmd.extractLsb' 0 8) → s.cmd &&& ~~~usedBits (s.cmd.extractLsb' 0 8) ≠ 0 →
      StepRaises s u 5 0x41)

/-! ### The step (20_memory R91, 70_reset_and_hazards R385) -/

/-- A STEP RUNS THE DECODED COMMAND. When a command is pending and its word decodes to `i`, the engine's step is `exec i`:
with no event left to come, and when the next event is the engine's step, which is taken off the order first. The other
steps: a host access and a reset are performed when they are the next event (R91, R380); the engine, when its event comes and
nothing is pending, changes nothing (R385, R367). The order of events is the model's own field (log 4, DESIGN CHOICE). That
the engine takes its turn when no event is left, and that an idle state then stays as it is, is the model's choice (log 5,
DESIGN CHOICE), its form of the fairness of R385. -/
def Obligations.StepRunsPendingCommand : Prop :=
  ∀ (s : State) (rest : List Event),
    (∀ i, s.pending = true → decode s.cfg.hasTxn s.cmd = .ok i → s.host.events = [] → step s = exec i s) ∧
    (∀ i, s.pending = true → decode s.cfg.hasTxn s.cmd = .ok i → s.host.events = .engine :: rest →
      step s = exec i { s with host := { s.host with events := rest } }) ∧
    (∀ x, s.host.events = .access x :: rest →
      step s = .next (hostAccess x { s with host := { s.host with events := rest } })) ∧
    (s.host.events = .reset :: rest → step s = .next (State.resetBlock { s with host := { s.host with events := rest } })) ∧
    (s.pending = false → s.host.events = .engine :: rest →
      step s = .next { s with host := { s.host with events := rest } }) ∧
    (s.pending = false → s.host.events = [] → step s = .next s)

/-- R385, R383: every run comes to its end, the first point at which the host has no further access to make and nothing is
pending, after at most one step more than there are events; no step on the way stops. The order of events is the model's own
field (log 4), and the engine's turn when no event is left the model's choice (log 5). -/
def Obligations.EveryRunComesToItsEnd : Prop :=
  ∀ s : State, ∃ n t, n ≤ s.host.events.length + 1 ∧ s.EndsAfter n t

/-! ### Whole-machine rules -/

/-- Every command of the table, in every state and for all operands, answers a next state with BUSY = 0 and one of the
(ERR, REASON) pairs of R351 and R352, and the engine never writes CMD, IN_LEN, IN_OFS, SEED, PARAM, SEQ, IN_BUF or the
parameters (R31, R385, R388); the host agent is as it was. -/
def Obligations.EveryCommandEndsAndKeepsOperands : Prop :=
  ∀ (i : Instr) (s : State), ∃ t, exec i s = .next t ∧ t.pending = false ∧
    (t.status.err, t.status.reason) ∈ statusPairs ∧ t.cfg = s.cfg ∧ t.cmd = s.cmd ∧
    t.opnd = s.opnd ∧ t.host = s.host ∧ ∀ k, t.inBuf.read k = s.inBuf.read k

/-- A command that fails writes nothing but the cleared result registers and STATUS; TBL_BUILT is the one exception: it may
become 1, is never lost, and is 1 after a failed command that reached a CRC, as one that found a CRC mismatch did (R355). -/
def Obligations.FailedCommandWritesOnlyStatus : Prop :=
  ∀ (i : Instr) (s t : State), exec i s = .next t → t.status.err ≠ 0 →
    t = { s with outs := cleared, status := t.status, pending := false, tblBuilt := t.tblBuilt, draws := t.draws } ∧
    (s.tblBuilt = true → t.tblBuilt = true) ∧ (t.status.reason = 0x11 → t.tblBuilt = true)

/-- What no step takes back: TBL_BUILT is cleared by nothing but a reset (R47), and what a host access answered stays
recorded, so that a recorded host fault is never cleared, not even by a reset (R357; the record is the model's field, log 7). -/
def Obligations.TableFlagAndHostFaultsAreKept : Prop :=
  ∀ s t : State, step s = .next t →
    (s.tblBuilt = true → s.host.events.head? ≠ some .reset → t.tblBuilt = true) ∧
    s.host.replies <+: t.host.replies ∧ (∀ f ∈ s.hostFaults, f ∈ t.hostFaults)

/-- R353: every command that reads IN first checks the window, without wrap-around; the others do not read IN and do not
check it, so IN_LEN, IN_OFS and IN_BUF make no difference to them. -/
def Obligations.InputBoundCheck : Prop :=
  ∀ (i : Instr) (s : State), i.wf s.cfg.hasTxn = true →
    (readsIn i = true → ¬InWindow s → Raises i s 1 0x0B MayBuild) ∧
    (readsIn i = false → ∀ (len ofs : Half) (m : Memory Byte) (t : State), exec i s = .next t →
      exec i { s with inBuf := m, opnd := { s.opnd with inLen := len, inOfs := ofs } } =
        .next { t with inBuf := m, opnd := { s.opnd with inLen := len, inOfs := ofs } })

/-- R354, points 2 and 3, of a decoded command of the block: once the IN window is in bounds (for a window that is not,
InputBoundCheck), PROTO = 3 raises BadProtocol first, then a record state the command does not accept raises BadState.
The first clause is the model's choice (log 9, DESIGN CHOICE): `exec` of a TXN command in a block without the TXN unit, which
no step reaches because the decoder refuses its word, posts BadCommand(OPCODE) as R117 says of that word. -/
def Obligations.ErrorPrecedence : Prop :=
  ∀ (i : Instr) (s : State),
    (i.wf s.cfg.hasTxn = false → Raises i s 5 0x40 MayBuild) ∧
    (i.wf s.cfg.hasTxn = true → (readsIn i = true → InWindow s) → protoOf i = some 3 → Raises i s 3 0x20 MayBuild) ∧
    (i.wf s.cfg.hasTxn = true → (readsIn i = true → InWindow s) → protoOf i ≠ some 3 → s.txn.state ∉ acceptedIn i →
      Raises i s 4 0x30 MayBuild)

/-- R301: a command that succeeds was accepted in the record's state and leaves the state of the table; a command in a state
it does not accept, once the checks before that one have passed (R354), raises BadState(STATE); a command that raises leaves
the whole record unchanged. -/
def Obligations.RecordStateTable : Prop :=
  ∀ (i : Instr) (s t : State), exec i s = .next t →
    (t.status.err = 0 → s.txn.state ∈ acceptedIn i ∧ t.txn.state = stateAfter s.txn.state i) ∧
    (i.wf s.cfg.hasTxn = true → (readsIn i = true → InWindow s) → protoOf i ≠ some 3 → s.txn.state ∉ acceptedIn i →
      t.status = { err := 4, reason := 0x30 }) ∧
    (t.status.err ≠ 0 → t.txn = s.txn)

/-- R389: the record changes only at a TXN command's step that succeeds, and at reset; a command outside the TXN unit neither
reads nor writes it: with any other record it does the same. -/
def Obligations.RecordIsTheTxnUnitsOwn : Prop :=
  (∀ s t : State, step s = .next t → t.txn ≠ s.txn →
    s.host.events.head? = some .reset ∨
    (s.pending = true ∧ t.status.err = 0 ∧ ∃ i, i.isTxn = true ∧ decode s.cfg.hasTxn s.cmd = .ok i)) ∧
  (∀ (i : Instr) (s t : State) (r : TxnRecord), i.isTxn = false → exec i s = .next t →
    t.txn = s.txn ∧ exec i { s with txn := r } = .next { t with txn := r })

/-- R153: whether TBL_BUILT was 0 or 1 changes nothing a command computes; only TBL_BUILT itself may differ. -/
def Obligations.TableFlagChangesNoResult : Prop :=
  ∀ (i : Instr) (s t : State) (b : Bool), exec i s = .next t →
    ∃ c, exec i { s with tblBuilt := b } = .next { t with tblBuilt := c }

/-- R53: nothing in the engine reads ERR, REASON, FLAGS or RESULT, nor any other result register: an earlier command's
outcome makes no difference. -/
def Obligations.EarlierOutcomeChangesNothing : Prop :=
  ∀ (i : Instr) (s : State) (o : OutputRegs) (st : Status), exec i { s with outs := o, status := st } = exec i s

/-! ### Invariants -/

/-- The invariant of the block holds after reset (R380). -/
def Obligations.ResetMeetsInvariant : Prop := State.reset.Inv

/-- THE INVARIANT THAT EVERY STEP KEEPS: legal parameters; buffers in canonical form and within their capacities; the
result registers describe defined data inside IN_BUF and OUT_BUF; a legal STATUS; a record that holds what its state says
(R6, R33, R39 to R43, R48, R300). -/
def Obligations.StepKeepsInvariant : Prop := ∀ s t : State, s.Inv → step s = .next t → t.Inv

/-! ### The host bus (20_memory, 70_reset_and_hazards) -/

/-- R89, R387: a host read has no side effect and is never a hazard: the reply is recorded (and a draw counted) and nothing
else changes; it is a value, whatever BUSY is, where the map admits the read. -/
def Obligations.HostReadsHaveNoSideEffect : Prop :=
  ∀ (s : State) (x : Access), s.cfg.Valid → dirOf x = .read → ∃ r n, hostAccess x s = { replied s r with draws := n } ∧
    (Admitted s.cfg x → widthOf x = .byte → ∃ b, r = .byte b) ∧
    (Admitted s.cfg x → widthOf x = .word → ∃ v, r = .word v)

/-- R84, R357: an access the map does not admit raises AccessFault with its address, direction and width, and changes no
state of the block. -/
def Obligations.UnadmittedAccessFaults : Prop :=
  ∀ (s : State) (x : Access), s.cfg.Valid → ¬Admitted s.cfg x →
    hostAccess x s = replied s (.fault (.accessFault (addrOf x) (dirOf x) (widthOf x)))

/-- R386: while BUSY = 1 a host write to CMD, IN_LEN, SEED, PARAM, SEQ, IN_OFS or an IN_BUF byte raises HazardFault and
changes nothing; a write to a read-only location is an AccessFault whatever BUSY is. -/
def Obligations.PendingOperandWriteIsHazard : Prop :=
  ∀ (s : State) (x : Access), s.cfg.Valid → dirOf x = .write →
    (s.pending = true → Admitted s.cfg x →
      hostAccess x s = replied s (.fault (.hazardFault (addrOf x) .write (widthOf x)))) ∧
    (¬Admitted s.cfg x → hostAccess x s = replied s (.fault (.accessFault (addrOf x) .write (widthOf x))))

/-- R384: a CMD write while BUSY = 0 stores the whole word, whatever it holds, and sets BUSY and PENDING; the other STATUS
fields and everything else keep their values. -/
def Obligations.CmdWriteIssues : Prop :=
  ∀ (s : State) (w : Word), s.pending = false →
    hostAccess (.writeWord 0x00000 w) s = { replied s .written with cmd := w, pending := true }

/-- R34 to R37, R81: a write to an operand register while BUSY = 0 stores bits [15:0] and ignores bits [31:16]; a read
gives them back with bits [31:16] zero. -/
def Obligations.OperandRegisterAccess : Prop :=
  ∀ (s : State) (v : Word),
    (s.pending = false →
      hostAccess (.writeWord 0x00008 v) s = { replied s .written with opnd := { s.opnd with inLen := v.setWidth 16 } } ∧
      hostAccess (.writeWord 0x0000C v) s = { replied s .written with opnd := { s.opnd with seed := v.setWidth 16 } } ∧
      hostAccess (.writeWord 0x00010 v) s = { replied s .written with opnd := { s.opnd with param := v.setWidth 16 } } ∧
      hostAccess (.writeWord 0x00014 v) s = { replied s .written with opnd := { s.opnd with seq := v.setWidth 16 } } ∧
      hostAccess (.writeWord 0x0003C v) s = { replied s .written with opnd := { s.opnd with inOfs := v.setWidth 16 } }) ∧
    hostAccess (.readWord 0x00008) s = replied s (.word (BitVec.ofNat 32 s.opnd.inLen.toNat)) ∧
    hostAccess (.readWord 0x0000C) s = replied s (.word (BitVec.ofNat 32 s.opnd.seed.toNat)) ∧
    hostAccess (.readWord 0x00010) s = replied s (.word (BitVec.ofNat 32 s.opnd.param.toNat)) ∧
    hostAccess (.readWord 0x00014) s = replied s (.word (BitVec.ofNat 32 s.opnd.seq.toNat)) ∧
    hostAccess (.readWord 0x0003C) s = replied s (.word (BitVec.ofNat 32 s.opnd.inOfs.toNat))

/-- R32, R33, R38 to R42: what the host reads from CMD, STATUS and the result registers, field by field; the bits not named
are the read-as-0 bits, given as part of the arithmetic value. -/
def Obligations.StatusAndResultReads : Prop :=
  ∀ s : State, ∃ st fl : Word,
    hostAccess (.readWord 0x00000) s = replied s (.word s.cmd) ∧
    hostAccess (.readWord 0x00004) s = replied s (.word st) ∧
    st.toNat = s.status.err.toNat + 2 ^ 8 * s.status.reason.toNat + 2 ^ 16 * s.tblBuilt.toNat + 2 ^ 31 * s.pending.toNat ∧
    hostAccess (.readWord 0x00018) s = replied s (.word (BitVec.ofNat 32 s.outs.result.toNat)) ∧
    hostAccess (.readWord 0x0001C) s = replied s (.word (BitVec.ofNat 32 s.outs.outLen.toNat)) ∧
    hostAccess (.readWord 0x00020) s = replied s (.word fl) ∧
    fl.toNat = s.outs.flags.remValid.toNat + 2 * s.outs.flags.none.toNat + 4 * s.outs.flags.drop.toNat +
      16 * s.outs.flags.est.toNat ∧
    hostAccess (.readWord 0x00024) s = replied s (.word (BitVec.ofNat 32 s.outs.frameCount.toNat)) ∧
    hostAccess (.readWord 0x00028) s = replied s (.word (BitVec.ofNat 32 s.outs.remStart.toNat)) ∧
    hostAccess (.readWord 0x0002C) s = replied s (.word (BitVec.ofNat 32 s.outs.remLen.toNat))

/-- R46: CAPS shows the parameters: BUF_CAP [15:0], HAS_TXN [16], ASCII_LOWER [17], RSP_SEQ [18], REV [23:20] = 1. -/
def Obligations.CapsShowsParameters : Prop :=
  ∀ s : State, s.cfg.Valid → ∃ v : Word, hostAccess (.readWord 0x00038) s = replied s (.word v) ∧
    v.toNat = s.cfg.bufCap + 2 ^ 16 * s.cfg.hasTxn.toNat + 2 ^ 17 * s.cfg.asciiLower.toNat +
      2 ^ 18 * s.cfg.rspCheckSeq.toNat + 2 ^ 20

/-- R43, R45: with the TXN unit, TXN_INFO and TXN_LEN show the record: STATE, REQ_PROTO (0 while Empty), RSP_PROTO (0 unless
ResponseSet), UNIT, SEQ1, SEQ0, and the two ADU lengths. -/
def Obligations.RecordReads : Prop :=
  ∀ s : State, s.cfg.hasTxn = true → s.txn.reqAdu.length < 2 ^ 16 → s.txn.rspAdu.length < 2 ^ 16 →
    ∃ info len : Word,
      hostAccess (.readWord 0x00030) s = replied s (.word info) ∧
      info.toNat = (match s.txn.state with | .empty => 0 | .requestSet => 1 | .responseSet => 2 | .timedOut => 3) +
        4 * (if s.txn.state = .empty then 0 else (tag s.txn.reqProto).toNat) +
        16 * (if s.txn.state = .responseSet then (tag s.txn.rspProto).toNat else 0) +
        2 ^ 8 * s.txn.unit.toNat + 2 ^ 16 * s.txn.seq.2.toNat + 2 ^ 24 * s.txn.seq.1.toNat ∧
      hostAccess (.readWord 0x00034) s = replied s (.word len) ∧
      len.toNat = s.txn.reqAdu.length + 2 ^ 16 * s.txn.rspAdu.length

/-- R82: IN_BUF[i] is written and read by bytes; a byte written while BUSY = 0 reads back, every other byte and everything
else is as it was; a 4-byte access in the region raises AccessFault. And R34: where the host has written every byte of the
window, IN is what it wrote. -/
def Obligations.InputBufferAccess : Prop :=
  (∀ (s : State) (i : Nat) (b : Byte) (v : Word), s.cfg.Valid → i < s.cfg.bufCap →
    (s.pending = false → ∃ m,
      hostAccess (.writeByte (BitVec.ofNat 20 (0x10000 + i)) b) s = { replied s .written with inBuf := m } ∧
      ∀ k, m.read k = if k = i then some b else s.inBuf.read k) ∧
    (∀ c, s.inBuf.read i = some c →
      hostAccess (.readByte (BitVec.ofNat 20 (0x10000 + i))) s = replied s (.byte c)) ∧
    hostAccess (.readWord (BitVec.ofNat 20 (0x10000 + i))) s =
      replied s (.fault (.accessFault (BitVec.ofNat 20 (0x10000 + i)) .read .word)) ∧
    hostAccess (.writeWord (BitVec.ofNat 20 (0x10000 + i)) v) s =
      replied s (.fault (.accessFault (BitVec.ofNat 20 (0x10000 + i)) .write .word))) ∧
  (∀ (s : State) (x : List Byte), HoldsInput s x → s.inBytes = x)

/-- R83: OUT_BUF[i] is read by bytes and gives the byte the engine wrote below OUT_LEN, some byte above; every write and
every 4-byte access raises AccessFault. -/
def Obligations.OutputBufferAccess : Prop :=
  ∀ (s : State) (i : Nat) (b : Byte) (v : Word), s.cfg.Valid → i < 2 * s.cfg.bufCap + 8 →
    (∀ c, i < s.outs.outLen.toNat → s.outBuf.read i = some c →
      hostAccess (.readByte (BitVec.ofNat 20 (0x20000 + i))) s = replied s (.byte c)) ∧
    (s.outs.outLen.toNat ≤ i → ∃ c n,
      hostAccess (.readByte (BitVec.ofNat 20 (0x20000 + i))) s = { replied s (.byte c) with draws := n }) ∧
    hostAccess (.writeByte (BitVec.ofNat 20 (0x20000 + i)) b) s =
      replied s (.fault (.accessFault (BitVec.ofNat 20 (0x20000 + i)) .write .byte)) ∧
    hostAccess (.readWord (BitVec.ofNat 20 (0x20000 + i))) s =
      replied s (.fault (.accessFault (BitVec.ofNat 20 (0x20000 + i)) .read .word)) ∧
    hostAccess (.writeWord (BitVec.ofNat 20 (0x20000 + i)) v) s =
      replied s (.fault (.accessFault (BitVec.ofNat 20 (0x20000 + i)) .write .word))

/-- R85: FDESC[k] is read by aligned words and gives the descriptor below FRAME_COUNT, some word above; writes, byte accesses
and misaligned accesses raise AccessFault. -/
def Obligations.DescriptorAccess : Prop :=
  ∀ (s : State) (j : Nat) (b : Byte) (v : Word), s.cfg.Valid → j < 4 * s.cfg.bufCap →
    (∀ k d, j = 4 * k → k < s.outs.frameCount.toNat → s.fdesc.read k = some d →
      hostAccess (.readWord (BitVec.ofNat 20 (0x40000 + j))) s = replied s (.word d)) ∧
    (∀ k, j = 4 * k → s.outs.frameCount.toNat ≤ k → ∃ d n,
      hostAccess (.readWord (BitVec.ofNat 20 (0x40000 + j))) s = { replied s (.word d) with draws := n }) ∧
    (j % 4 ≠ 0 → hostAccess (.readWord (BitVec.ofNat 20 (0x40000 + j))) s =
      replied s (.fault (.accessFault (BitVec.ofNat 20 (0x40000 + j)) .read .word))) ∧
    hostAccess (.readByte (BitVec.ofNat 20 (0x40000 + j))) s =
      replied s (.fault (.accessFault (BitVec.ofNat 20 (0x40000 + j)) .read .byte)) ∧
    hostAccess (.writeByte (BitVec.ofNat 20 (0x40000 + j)) b) s =
      replied s (.fault (.accessFault (BitVec.ofNat 20 (0x40000 + j)) .write .byte)) ∧
    hostAccess (.writeWord (BitVec.ofNat 20 (0x40000 + j)) v) s =
      replied s (.fault (.accessFault (BitVec.ofNat 20 (0x40000 + j)) .write .word))

/-- R380: a reset event sets every register, TBL_BUILT, the record and PENDING to the value of its table, whatever was
pending, leaves no buffer byte or descriptor defined, and does not change the parameters or the host's record. -/
def Obligations.ResetEventSetsTheTable : Prop :=
  ∀ (s : State) (rest : List Event), s.host.events = .reset :: rest → ∃ t, step s = .next t ∧
    t.cmd = 0 ∧ t.pending = false ∧ t.status.err = 0 ∧ t.status.reason = 0 ∧ t.tblBuilt = false ∧
    t.opnd = { inLen := 0, inOfs := 0, seed := 0xFFFF, param := 0, seq := 0 } ∧ t.outs = cleared ∧
    (∀ k, t.inBuf.read k = none ∧ t.outBuf.read k = none ∧ t.fdesc.read k = none) ∧
    t.txn = { state := .empty, unit := 1, seq := (0, 0), reqProto := .ascii, reqRaw := [], reqAdu := [],
              rspProto := .ascii, rspRaw := [], rspAdu := [] } ∧
    t.cfg = s.cfg ∧ t.host.replies = s.host.replies ∧ t.host.events = rest

/-! ### Checksums (41_checksums) -/

/-- R154: LRC. -/
def Obligations.LrcResult : Prop :=
  ∀ s : State,
    encode .lrc = 0x00000001 ∧
    (InWindow s → 2 ≤ s.inBytes.length →
      Completes .lrc s { cleared with result := (lrcOf s.inBytes).setWidth 16 } s.tblBuilt) ∧
    (InWindow s → s.inBytes.length < 2 → Raises .lrc s 1 0x01 MayBuild) ∧
    (¬InWindow s → Raises .lrc s 1 0x0B MayBuild)

/-- R159: the byte sum with the LRC appended is 0 modulo 256; and the LRC is the negation R151 derives. -/
def Obligations.LrcCancelsByteSum : Prop :=
  ∀ x : List Byte, 2 ≤ x.length → ∃ v, lrc x = .ok v ∧ (sum x + v.toNat) % 256 = 0 ∧ v = lrcOf x

/-- R155: CRC16, seeded from SEED. -/
def Obligations.CrcResult : Prop :=
  ∀ s : State,
    encode .crc16 = 0x00000002 ∧
    (InWindow s → 2 ≤ s.inBytes.length →
      Completes .crc16 s { cleared with result := crcOf s.opnd.seed s.inBytes } true) ∧
    (InWindow s → s.inBytes.length < 2 → Raises .crc16 s 1 0x01 MayBuild) ∧
    (¬InWindow s → Raises .crc16 s 1 0x0B MayBuild)

/-- R157: the table-driven CRC and the bit-serial form agree for every input and every seed. -/
def Obligations.CrcSerialFormAgrees : Prop :=
  ∀ (x : List Byte) (seed : Half), crc16 x seed = if x.length < 2 then .error .short else .ok (crcSerial seed x)

/-- R160: a frame with its own CRC appended, low byte first, has CRC 0. -/
def Obligations.CrcZeroResidue : Prop :=
  ∀ (x : List Byte) (c : Half), 2 ≤ x.length → crc16 x 0xFFFF = .ok c →
    crc16 (x ++ [c.setWidth 8, (c >>> 8).setWidth 8]) 0xFFFF = .ok 0x0000

/-- R158, R152: CRCTAB reads the table entry PARAM[15:8], whatever IN is. -/
def Obligations.CrctabResult : Prop :=
  ∀ s : State, encode .crctab = 0x00000003 ∧ Completes .crctab s
    { cleared with result := shift8 8 (BitVec.ofNat 16 (s.opnd.param.toNat / 256)) } true

/-! ### Modbus/ASCII (42_ascii) -/

/-- R182: ASCII_ENC. -/
def Obligations.AsciiEncResult : Prop :=
  ∀ s : State,
    encode .asciiEnc = 0x00000010 ∧
    (InWindow s → 2 ≤ s.inBytes.length →
      CompletesOut .asciiEnc s ([0x3A] ++ hexText s.inBytes ++ hexText [lrcOf s.inBytes] ++ [0x0D, 0x0A]) 0 s.tblBuilt) ∧
    (InWindow s → s.inBytes.length < 2 → Raises .asciiEnc s 1 0x01 MayBuild) ∧
    (¬InWindow s → Raises .asciiEnc s 1 0x0B MayBuild)

/-- R187: the ASCII round trip, whatever ASCII_ACCEPT_LOWER is. -/
def Obligations.AsciiRoundTrip : Prop :=
  ∀ (lower : Bool) (x : List Byte), 2 ≤ x.length → ∃ f, asciiEnc x = .ok f ∧ asciiDec lower f = .ok x

/-- R184, R185: which check of the ASCII decoder fails first, and what it decodes otherwise. (One corner case of R186 names
another reason for `:0103FC` CR CR LF than the pseudocode of R185 gives; the model follows R185, log 12.) -/
def Obligations.AsciiDecodeChecks : Prop :=
  ∀ (lower : Bool) (f : List Byte),
    (f.head? ≠ some 0x3A → asciiDec lower f = .error .start) ∧
    (∀ body, BodyOf f body →
      (body.length % 2 = 1 → asciiDec lower f = .error .odd) ∧
      (body.length % 2 = 0 → (¬∃ d, HexOf lower body d) → asciiDec lower f = .error .hex) ∧
      (∀ d, HexOf lower body d → d.length < 3 → asciiDec lower f = .error .short) ∧
      (∀ d l, HexOf lower body (d ++ [l]) → 2 ≤ d.length →
        asciiDec lower f = if l = lrcOf d then .ok d else .error .lrc)) ∧
    (f.head? = some 0x3A → ∃ body, BodyOf f body)

/-- R186, R185: ASCII_DEC posts what the decoder of R185 gives (but for one corner case that R186 lists, log 12): the
unit+ADU, or one of its five errors with the ERR and REASON of R351 and R352. -/
def Obligations.AsciiDecResult : Prop :=
  ∀ s : State,
    encode .asciiDec = 0x00000011 ∧
    (∀ d, InWindow s → asciiDec s.cfg.asciiLower s.inBytes = .ok d → CompletesOut .asciiDec s d 0 s.tblBuilt) ∧
    (InWindow s → asciiDec s.cfg.asciiLower s.inBytes = .error .start → Raises .asciiDec s 1 0x02 MayBuild) ∧
    (InWindow s → asciiDec s.cfg.asciiLower s.inBytes = .error .odd → Raises .asciiDec s 1 0x03 MayBuild) ∧
    (InWindow s → asciiDec s.cfg.asciiLower s.inBytes = .error .hex → Raises .asciiDec s 1 0x04 MayBuild) ∧
    (InWindow s → asciiDec s.cfg.asciiLower s.inBytes = .error .short → Raises .asciiDec s 1 0x01 MayBuild) ∧
    (InWindow s → asciiDec s.cfg.asciiLower s.inBytes = .error .lrc → Raises .asciiDec s 2 0x10 MayBuild) ∧
    (∀ e, asciiDec s.cfg.asciiLower s.inBytes = .error e → e ∈ [.start, .odd, .hex, .short, .lrc]) ∧
    (¬InWindow s → Raises .asciiDec s 1 0x0B MayBuild)

/-- R191, and what the loop of R190 finds. NONE = 1 exactly when the buffer has no ':' (DOC's (None, None), R190), with
DROP = 1 then exactly when the buffer is not empty. When NONE = 0: a frame's first byte is ':' and its last, and only its
last, is LF; frames come in increasing START order without overlap, before the remainder; the remainder holds no LF; DROP = 1
exactly when some byte is in no frame and not in the remainder. Every line (up to its LF) that holds a ':' gives exactly one
frame, from the line's first ':' to its LF. The remainder starts right after an LF when there is a frame, and at the first
':' of the buffer when there is none. -/
def Obligations.AsciiFrameLaws : Prop :=
  ∀ b : List Byte,
    ((asciiScan b).none = true ↔ 0x3A ∉ b) ∧
    (0x3A ∉ b → (asciiScan b).frames = [] ∧ (asciiScan b).stop = b.length ∧ ((asciiScan b).drop = true ↔ b ≠ [])) ∧
    ((asciiScan b).none = false →
      (∀ f ∈ (asciiScan b).frames, ∃ mid, cut b f = [0x3A] ++ mid ++ [0x0A] ∧ 0x0A ∉ mid ∧ f.2 = mid.length + 2) ∧
      (asciiScan b).frames.Pairwise (fun f g => f.1 + f.2 ≤ g.1) ∧
      (∀ f ∈ (asciiScan b).frames, f.1 + f.2 ≤ (asciiScan b).stop) ∧ (asciiScan b).stop ≤ b.length ∧
      0x0A ∉ b.drop (asciiScan b).stop ∧
      ((asciiScan b).drop = true ↔
        ∃ i, i < (asciiScan b).stop ∧ ∀ f ∈ (asciiScan b).frames, ¬Covers f i) ∧
      (∀ before junk rest after : List Byte, b = before ++ junk ++ [0x3A] ++ rest ++ [0x0A] ++ after →
        (before = [] ∨ before.getLast? = some 0x0A) → 0x3A ∉ junk → 0x0A ∉ junk → 0x0A ∉ rest →
        (before.length + junk.length, rest.length + 2) ∈ (asciiScan b).frames ∧
        ∀ f ∈ (asciiScan b).frames, before.length ≤ f.1 → f.1 < before.length + junk.length + rest.length + 2 →
          f = (before.length + junk.length, rest.length + 2)) ∧
      ((asciiScan b).frames ≠ [] → (b.take (asciiScan b).stop).getLast? = some 0x0A) ∧
      ((asciiScan b).frames = [] → b[(asciiScan b).stop]? = some 0x3A ∧ 0x3A ∉ b.take (asciiScan b).stop))

/-- R190, R232, R275, R41, R42: the three framers complete for every window that lies in IN_BUF, and post what their scan
found; outside it they raise BadForm(INLEN), their only error. -/
def Obligations.FramersPostTheirScan : Prop :=
  ∀ s : State,
    encode .asciiFrame = 0x00000012 ∧ encode (.rtuFrame false) = 0x00000023 ∧ encode (.rtuFrame true) = 0x00000423 ∧
    encode .tcpFrame = 0x00000033 ∧
    (InWindow s →
      CompletesFrames .asciiFrame s (asciiScan s.inBytes) ∧
      (∀ req, CompletesFrames (.rtuFrame req) s (rtuScan req s.inBytes)) ∧
      CompletesFrames .tcpFrame s (tcpScan s.inBytes)) ∧
    (¬InWindow s →
      Raises .asciiFrame s 1 0x0B MayBuild ∧ (∀ req, Raises (.rtuFrame req) s 1 0x0B MayBuild) ∧
      Raises .tcpFrame s 1 0x0B MayBuild)

/-! ### Modbus/RTU (43_rtu) -/

/-- R222: RTU_ENC. -/
def Obligations.RtuEncResult : Prop :=
  ∀ s : State,
    encode .rtuEnc = 0x00000020 ∧
    (InWindow s → 2 ≤ s.inBytes.length → CompletesOut .rtuEnc s
      (s.inBytes ++ [(crcOf 0xFFFF s.inBytes).setWidth 8, (crcOf 0xFFFF s.inBytes >>> 8).setWidth 8]) 0 true) ∧
    (InWindow s → s.inBytes.length < 2 → Raises .rtuEnc s 1 0x01 MayBuild) ∧
    (¬InWindow s → Raises .rtuEnc s 1 0x0B MayBuild)

/-- R234: the RTU round trip. -/
def Obligations.RtuRoundTrip : Prop :=
  ∀ x : List Byte, 2 ≤ x.length → ∃ f, rtuEnc x = .ok f ∧ rtuDec f = .ok x

/-- R224: RTU_DEC. A frame of at least 4 bytes ends in its CRC, low byte first, or is a BadChecksum. -/
def Obligations.RtuDecResult : Prop :=
  ∀ s : State,
    encode .rtuDec = 0x00000021 ∧
    (∀ d lo hi, InWindow s → s.inBytes = d ++ [lo, hi] → 2 ≤ d.length →
      ((lo = (crcOf 0xFFFF d).setWidth 8 ∧ hi = (crcOf 0xFFFF d >>> 8).setWidth 8) →
        CompletesOut .rtuDec s d 0 true) ∧
      (¬(lo = (crcOf 0xFFFF d).setWidth 8 ∧ hi = (crcOf 0xFFFF d >>> 8).setWidth 8) →
        Raises .rtuDec s 2 0x11 Built)) ∧
    (InWindow s → s.inBytes.length < 4 → Raises .rtuDec s 1 0x01 MayBuild) ∧
    (¬InWindow s → Raises .rtuDec s 1 0x0B MayBuild)

/-- R225, R226: the two length estimators, class by class. -/
def Obligations.LengthEstimatorClasses : Prop :=
  ∀ b : List Byte,
    (b.length < 2 → estReq b = .notYet ∧ estRsp b = .notYet) ∧
    (∀ fc : Byte, 2 ≤ b.length → b[1]? = some fc →
      (fc ∈ [1, 2, 3, 4, 5, 6] → estReq b = .length 6) ∧
      (fc ∈ [7, 11, 12, 17] → estReq b = .length 2) ∧
      (fc ∈ [15, 16] → b.length < 7 → estReq b = .notYet) ∧
      (fc ∈ [15, 16] → ∀ c, b[6]? = some c → estReq b = .length (7 + c.toNat)) ∧
      (fc ∉ [1, 2, 3, 4, 5, 6, 7, 11, 12, 15, 16, 17] → estReq b = .rest) ∧
      (0x80 ≤ fc.toNat → estRsp b = .length 3) ∧
      (fc ∈ [1, 2, 3, 4, 11] → b.length < 3 → estRsp b = .notYet) ∧
      (fc ∈ [1, 2, 3, 4, 11] → ∀ c, b[2]? = some c → estRsp b = .length (3 + c.toNat)) ∧
      (fc ∈ [5, 6, 15, 16] → estRsp b = .length 6) ∧
      (fc.toNat < 0x80 → fc ∉ [1, 2, 3, 4, 5, 6, 11, 15, 16] → estRsp b = .rest))

/-- R228: RTU_EST posts the estimate: RESULT and EST = 0 for a length, EST = 1 for not yet, EST = 2 for rest. -/
def Obligations.RtuEstResult : Prop :=
  ∀ (s : State) (req : Bool),
    encode (.rtuEst req) = (if req then 0x00000422 else 0x00000022) ∧
    (InWindow s →
      (∀ k, (if req then estReq s.inBytes else estRsp s.inBytes) = .length k →
        Completes (.rtuEst req) s { cleared with result := BitVec.ofNat 16 k } s.tblBuilt) ∧
      ((if req then estReq s.inBytes else estRsp s.inBytes) = .notYet →
        Completes (.rtuEst req) s { cleared with flags := { cleared.flags with est := 1 } } s.tblBuilt) ∧
      ((if req then estReq s.inBytes else estRsp s.inBytes) = .rest →
        Completes (.rtuEst req) s { cleared with flags := { cleared.flags with est := 2 } } s.tblBuilt)) ∧
    (¬InWindow s → Raises (.rtuEst req) s 1 0x0B MayBuild)

/-- R233: the laws of RTU_FRAME. Frames and remainder cover IN exactly once, in order; NONE and DROP stay 0; every frame is
k + 2 long for the estimate k at its start, or is the last and comes from REST; the framer stops before the end of the buffer
only where the estimate is NOTYET, or is a length k with fewer than k + 2 bytes left (R232); well-formed requests in a row are
framed exactly. -/
def Obligations.RtuFrameLaws : Prop :=
  ∀ (req : Bool) (b : List Byte),
    (rtuScan req b).none = false ∧ (rtuScan req b).drop = false ∧
    Chain 0 (rtuScan req b).frames (rtuScan req b).stop ∧ (rtuScan req b).stop ≤ b.length ∧
    (∀ f ∈ (rtuScan req b).frames,
      (∃ k, (if req then estReq (b.drop f.1) else estRsp (b.drop f.1)) = .length k ∧ f.2 = k + 2) ∨
      ((if req then estReq (b.drop f.1) else estRsp (b.drop f.1)) = .rest ∧ f.1 + f.2 = b.length)) ∧
    ((rtuScan req b).stop < b.length →
      (if req then estReq (b.drop (rtuScan req b).stop) else estRsp (b.drop (rtuScan req b).stop)) = .notYet ∨
      ∃ k, (if req then estReq (b.drop (rtuScan req b).stop) else estRsp (b.drop (rtuScan req b).stop)) = .length k ∧
        b.length - (rtuScan req b).stop < k + 2) ∧
    (∀ reqs : List (List Byte), (∀ f ∈ reqs, WholeRequest f) →
      (rtuScan true reqs.flatten).frames.map (cut reqs.flatten) = reqs ∧
      (rtuScan true reqs.flatten).stop = reqs.flatten.length)

/-! ### Modbus/TCP (44_tcp) -/

/-- R262: TCP_ENC, with the transaction id of SEQ. -/
def Obligations.TcpEncResult : Prop :=
  ∀ s : State,
    encode .tcpEnc = 0x00000030 ∧
    (InWindow s → 2 ≤ s.inBytes.length → CompletesOut .tcpEnc s
      ([s.opnd.seq.extractLsb' 8 8, s.opnd.seq.extractLsb' 0 8, 0x00, 0x00, BitVec.ofNat 8 (s.inBytes.length / 256),
        BitVec.ofNat 8 (s.inBytes.length % 256)] ++ s.inBytes) 0 s.tblBuilt) ∧
    (InWindow s → s.inBytes.length < 2 → Raises .tcpEnc s 1 0x01 MayBuild) ∧
    (¬InWindow s → Raises .tcpEnc s 1 0x0B MayBuild)

/-- R269: the TCP round trip up to 256 bytes; above, up to what a block can hold, the decode raises BadForm(LEN_BIG). -/
def Obligations.TcpRoundTrip : Prop :=
  ∀ (t : Byte × Byte) (x : List Byte), 2 ≤ x.length → x.length ≤ 32752 →
    ∃ f, tcpEnc t x = .ok f ∧
      (x.length ≤ 256 → tcpDec f = .ok (t, x)) ∧ (256 < x.length → tcpDec f = .error .lenBig)

/-- R264, R265: TCP_VALID, its checks in their order. -/
def Obligations.TcpValidResult : Prop :=
  ∀ (s : State) (xseq xunit : Bool),
    encode (.tcpValid xseq xunit) = 0x00000031#32 + (if xseq then 0x0800 else 0) + (if xunit then 0x1000 else 0) ∧
    (InWindow s → s.inBytes.length < 8 → Raises (.tcpValid xseq xunit) s 1 0x01 MayBuild) ∧
    (∀ t0 t1 p0 p1 l0 l1 u rest, InWindow s → s.inBytes = [t0, t1, p0, p1, l0, l1, u] ++ rest → rest ≠ [] →
      if p0 ≠ 0 ∨ p1 ≠ 0 then Raises (.tcpValid xseq xunit) s 1 0x05 MayBuild
      else if 256 * l0.toNat + l1.toNat ≠ rest.length + 1 then Raises (.tcpValid xseq xunit) s 1 0x06 MayBuild
      else if 256 < rest.length + 1 then Raises (.tcpValid xseq xunit) s 1 0x07 MayBuild
      else if xseq = true ∧ t0 ++ t1 ≠ s.opnd.seq then Raises (.tcpValid xseq xunit) s 1 0x08 MayBuild
      else if xunit = true ∧ u ≠ s.opnd.param.extractLsb' 0 8 then Raises (.tcpValid xseq xunit) s 1 0x09 MayBuild
      else Completes (.tcpValid xseq xunit) s { cleared with result := 1 } s.tblBuilt) ∧
    (¬InWindow s → Raises (.tcpValid xseq xunit) s 1 0x0B MayBuild)

/-- R268, R267: TCP_DEC completes on a frame whose header is right, with the unit+ADU in OUT and the id in RESULT; otherwise
it raises what the validation of R264 raises. -/
def Obligations.TcpDecResult : Prop :=
  ∀ s : State,
    encode .tcpDec = 0x00000032 ∧
    (∀ t0 t1 l0 l1 d, InWindow s → s.inBytes = [t0, t1, 0x00, 0x00, l0, l1] ++ d → 2 ≤ d.length → d.length ≤ 256 →
      256 * l0.toNat + l1.toNat = d.length → CompletesOut .tcpDec s d (t0 ++ t1) s.tblBuilt) ∧
    (∀ e, InWindow s → tcpValid s.inBytes none none = .error e → Raises .tcpDec s e.kind.code e.code MayBuild) ∧
    (¬InWindow s → Raises .tcpDec s 1 0x0B MayBuild)

/-- R276: the laws of TCP_FRAME. Every frame has protocol id 0 and length 6 + L with L at least 2; frames run on from the
start without a gap; with DROP = 0 the remainder follows them and waits for more bytes: it is shorter than a header, or has a
good header and fewer than 6 + L bytes (R275); with DROP = 1 a header is bad where the last frame ends and there is no
remainder; NONE = 1 exactly when the first header is bad, and then there is no frame. -/
def Obligations.TcpFrameLaws : Prop :=
  ∀ b : List Byte,
    (∀ f ∈ (tcpScan b).frames, ∃ t0 t1 l0 l1 d, cut b f = [t0, t1, 0x00, 0x00, l0, l1] ++ d ∧
      256 * l0.toNat + l1.toNat = d.length ∧ 2 ≤ d.length ∧ f.2 = 6 + d.length) ∧
    (∃ q, Chain 0 (tcpScan b).frames q ∧ q ≤ b.length ∧
      ((tcpScan b).drop = false → (tcpScan b).stop = q ∧ (tcpScan b).none = false ∧ AwaitsBytes (b.drop q)) ∧
      ((tcpScan b).drop = true → (tcpScan b).stop = b.length ∧
        ((tcpScan b).none = true ↔ (tcpScan b).frames = []) ∧ BadHeader (b.drop q))) ∧
    ((tcpScan b).none = true ↔ BadHeader b)

/-! ### The transaction record (45_transaction) -/

/-- R305, R306, R304: TXN_CLEAR and TXN_SETSEQ are accepted in every state; SETSEQ pads its id with zero bytes at the end or
keeps its first two bytes. -/
def Obligations.ClearAndSetseqResult : Prop :=
  ∀ s : State, s.cfg.hasTxn = true →
    encode .txnClear = 0x00000040 ∧ encode .txnSetseq = 0x00000041 ∧
    CompletesTxn .txnClear s { state := .empty, unit := 1, seq := (0, 0), reqProto := .ascii, reqRaw := [], reqAdu := [],
                               rspProto := .ascii, rspRaw := [], rspAdu := [] } 0 s.tblBuilt ∧
    (InWindow s → ∃ t0 t1, CompletesTxn .txnSetseq s { s.txn with seq := (t0, t1) } 0 s.tblBuilt ∧
      (s.inBytes = [] → t0 = 0 ∧ t1 = 0) ∧ (∀ a, s.inBytes = [a] → t0 = a ∧ t1 = 0) ∧
      (∀ a b rest, s.inBytes = a :: b :: rest → t0 = a ∧ t1 = b)) ∧
    (¬InWindow s → Raises .txnSetseq s 1 0x0B MayBuild)

/-- R308: TXN_SETREQ on a frame of protocol p. In the state Empty what it decodes goes into the record, and REQ_RAW is IN; in
the other states it raises BadState; PROTO = 3 raises BadProtocol; a window outside IN_BUF raises BadForm(INLEN). -/
def Obligations.SetreqResult : Prop :=
  ∀ (s : State) (p : Protocol), s.cfg.hasTxn = true →
    (encode (.txnSetreq (tag p))).toNat = 0x42 + 2 ^ 8 * (tag p).toNat ∧
    (InWindow s → s.txn.state = .empty →
      (∀ id u adu, decP s.cfg.asciiLower p s.inBytes = .ok (id, u :: adu) → adu.length ≤ aduLimit p →
        ∃ raw, raw.length = s.opnd.inLen.toNat ∧ (∀ x, HoldsInput s x → raw = x) ∧
          CompletesTxn (.txnSetreq (tag p)) s
            { s.txn with state := .requestSet, unit := u, seq := id.getD s.txn.seq, reqProto := p, reqRaw := raw,
                         reqAdu := adu } (u.setWidth 16) (s.tblBuilt || isRtu p)) ∧
      (∀ id u adu, decP s.cfg.asciiLower p s.inBytes = .ok (id, u :: adu) → aduLimit p < adu.length →
        Raises (.txnSetreq (tag p)) s 1 0x0A (BuiltIf (isRtu p))) ∧
      (∀ e, decP s.cfg.asciiLower p s.inBytes = .error e →
        Raises (.txnSetreq (tag p)) s e.kind.code e.code (BuiltIf (decide (e = .crc))))) ∧
    (InWindow s → s.txn.state ≠ .empty → Raises (.txnSetreq (tag p)) s 4 0x30 MayBuild) ∧
    (InWindow s → Raises (.txnSetreq 3) s 3 0x20 MayBuild) ∧
    (¬InWindow s → Raises (.txnSetreq (tag p)) s 1 0x0B MayBuild ∧ Raises (.txnSetreq 3) s 1 0x0B MayBuild)

/-- R310, R314: TXN_GETREQ and TXN_GETRSP re-render the stored unit id and ADU in the protocol asked for, with the stored
transaction id for TCP; in a state they do not accept they raise BadState, for PROTO = 3 BadProtocol. A stored ADU is never
empty (StepKeepsInvariant). -/
def Obligations.StoredAduIsRendered : Prop :=
  ∀ (s : State) (p : Protocol), s.cfg.hasTxn = true →
    (encode (.txnGetreq (tag p))).toNat = 0x43 + 2 ^ 8 * (tag p).toNat ∧
    (encode (.txnGetrsp (tag p))).toNat = 0x45 + 2 ^ 8 * (tag p).toNat ∧
    (s.txn.state ≠ .empty → s.txn.reqAdu ≠ [] →
      CompletesOut (.txnGetreq (tag p)) s (frameOf s.txn.seq p (s.txn.unit :: s.txn.reqAdu)) 0 (s.tblBuilt || isRtu p)) ∧
    (s.txn.state = .empty → Raises (.txnGetreq (tag p)) s 4 0x30 MayBuild) ∧
    Raises (.txnGetreq 3) s 3 0x20 MayBuild ∧
    (s.txn.state = .responseSet → s.txn.rspAdu ≠ [] →
      CompletesOut (.txnGetrsp (tag p)) s (frameOf s.txn.seq p (s.txn.unit :: s.txn.rspAdu)) 0 (s.tblBuilt || isRtu p)) ∧
    (s.txn.state ≠ .responseSet → Raises (.txnGetrsp (tag p)) s 4 0x30 MayBuild) ∧
    Raises (.txnGetrsp 3) s 3 0x20 MayBuild

/-- R312: TXN_SETRSP over ASCII and RTU, in the state RequestSet: the response's unit id must be the request's. -/
def Obligations.SetrspSerialResult : Prop :=
  ∀ (s : State) (p : Protocol), p ≠ .tcp → s.cfg.hasTxn = true → InWindow s → s.txn.state = .requestSet →
    (encode (.txnSetrsp (tag p))).toNat = 0x44 + 2 ^ 8 * (tag p).toNat ∧
    (∀ id u adu, decP s.cfg.asciiLower p s.inBytes = .ok (id, u :: adu) →
      (u = s.txn.unit → adu.length ≤ aduLimit p →
        ∃ raw, raw.length = s.opnd.inLen.toNat ∧ (∀ x, HoldsInput s x → raw = x) ∧
          CompletesTxn (.txnSetrsp (tag p)) s
            { s.txn with state := .responseSet, rspProto := p, rspRaw := raw, rspAdu := adu } (u.setWidth 16)
            (s.tblBuilt || isRtu p)) ∧
      (u ≠ s.txn.unit → Raises (.txnSetrsp (tag p)) s 1 0x09 (BuiltIf (isRtu p))) ∧
      (u = s.txn.unit → aduLimit p < adu.length → Raises (.txnSetrsp (tag p)) s 1 0x0A (BuiltIf (isRtu p)))) ∧
    (∀ e, decP s.cfg.asciiLower p s.inBytes = .error e →
      Raises (.txnSetrsp (tag p)) s e.kind.code e.code (BuiltIf (decide (e = .crc))))

/-- R312: TXN_SETRSP over TCP, in the state RequestSet, on a window the host has written: the header is validated with the
stored unit id and, when TCP_RSP_CHECK_SEQ is true, the stored transaction id (R10). -/
def Obligations.SetrspTcpResult : Prop :=
  ∀ (s : State) (x : List Byte), s.cfg.hasTxn = true → InWindow s → s.txn.state = .requestSet → HoldsInput s x →
    encode (.txnSetrsp 2) = 0x00000244 ∧
    (∀ t0 t1 l0 l1 u adu, x = [t0, t1, 0x00, 0x00, l0, l1, u] ++ adu → adu ≠ [] → adu.length ≤ 255 →
      256 * l0.toNat + l1.toNat = adu.length + 1 →
      (s.cfg.rspCheckSeq = true → (t0, t1) ≠ s.txn.seq → Raises (.txnSetrsp 2) s 1 0x08 MayBuild) ∧
      ((s.cfg.rspCheckSeq = true → (t0, t1) = s.txn.seq) → u ≠ s.txn.unit → Raises (.txnSetrsp 2) s 1 0x09 MayBuild) ∧
      ((s.cfg.rspCheckSeq = true → (t0, t1) = s.txn.seq) → u = s.txn.unit →
        CompletesTxn (.txnSetrsp 2) s
          { s.txn with state := .responseSet, rspProto := .tcp, rspRaw := x, rspAdu := adu } (u.setWidth 16) s.tblBuilt)) ∧
    (∀ e, tcpValid x none none = .error e → Raises (.txnSetrsp 2) s e.kind.code e.code MayBuild)

/-- R316: TXN_NORSP, in RequestSet or TimedOut: over TCP the gateway-timeout exception frame, over ASCII and RTU nothing; the
record is TimedOut either way. In Empty and ResponseSet it raises BadState, for PROTO = 3 BadProtocol. -/
def Obligations.NorspResult : Prop :=
  ∀ (s : State), s.cfg.hasTxn = true →
    (∀ p : BitVec 2, (encode (.txnNorsp p)).toNat = 0x46 + 2 ^ 8 * p.toNat) ∧
    (s.txn.state = .requestSet ∨ s.txn.state = .timedOut →
      (∀ fc rest, s.txn.reqAdu = fc :: rest → ∃ n m,
        exec (.txnNorsp 2) s = .next { completed s { cleared with outLen := 9 } s.tblBuilt n with
          txn := { s.txn with state := .timedOut }, outBuf := m } ∧
        ∀ k, m.read k =
          if k < 9 then [s.txn.seq.1, s.txn.seq.2, 0x00, 0x00, 0x00, 0x03, s.txn.unit, fc ||| 0x80, 0x0B][k]?
          else s.outBuf.read k) ∧
      (∀ p : BitVec 2, p = 0 ∨ p = 1 → ∃ n,
        exec (.txnNorsp p) s = .next { completed s { cleared with flags := { cleared.flags with none := true } } s.tblBuilt n
          with txn := { s.txn with state := .timedOut } })) ∧
    (s.txn.state = .empty ∨ s.txn.state = .responseSet →
      ∀ p : BitVec 2, p ≠ 3 → Raises (.txnNorsp p) s 4 0x30 MayBuild) ∧
    Raises (.txnNorsp 3) s 3 0x20 MayBuild

/-- R311: a request stored from a frame of protocol p1, whose unit+ADU is `d`, is re-rendered in protocol p2 as `enc_p(p2, d)`,
and that frame decodes to the same unit id and ADU. -/
def Obligations.CrossProtocolPreservation : Prop :=
  ∀ (s t : State) (p1 p2 : Protocol) (id : Option (Byte × Byte)) (d : List Byte),
    exec (.txnSetreq (tag p1)) s = .next t → t.status.err = 0 →
    decP s.cfg.asciiLower p1 s.inBytes = .ok (id, d) →
    ∃ f id2, encP t.txn.seq p2 d = .ok f ∧ CompletesOut (.txnGetreq (tag p2)) t f 0 (t.tblBuilt || isRtu p2) ∧
      decP s.cfg.asciiLower p2 f = .ok (id2, d) ∧ (p2 = .tcp → id2 = some t.txn.seq)

/-! ### The table flag (10_state R47) -/

/-- R47, R115: a command that succeeds sets TBL_BUILT if it uses the CRC table and otherwise leaves it as it was. -/
def Obligations.SuccessSetsTheTableFlag : Prop :=
  ∀ (i : Instr) (s t : State), exec i s = .next t → t.status.err = 0 → t.tblBuilt = (s.tblBuilt || usesCrc i)
end

