-- ==== Sys2Proof/Laws/Memory.lean ====
section
/-! SUPPORT. The laws of a buffer: a read after a write, and every operation keeps the canonical form. -/

namespace Sys2Proof.Machine

variable {α : Type}

@[simp] theorem Memory.read_nil (i : Nat) : Memory.read ([] : Memory α) i = none := rfl

/-- A write is read back, and leaves every other index alone. -/
theorem Memory.read_write (m : Memory α) (i : Nat) (x : α) (k : Nat) :
    (m.write i x).read k = if k = i then some x else m.read k := by
  induction m with
  | nil => simp only [Memory.write, Memory.read]; split <;> simp
  | cons p m ih =>
    obtain ⟨j, v⟩ := p
    simp only [Memory.write]
    split
    · simp only [Memory.read]; split_ifs <;> first | rfl | omega
    · split
      · simp only [Memory.read]; split_ifs <;> first | rfl | omega
      · simp only [Memory.read, ih]; split_ifs <;> first | rfl | omega

@[simp] theorem Memory.read_write_same (m : Memory α) (i : Nat) (x : α) : (m.write i x).read i = some x := by
  simp [Memory.read_write]

/-- A list written at consecutive indices is read back there, and every other index is left alone. -/
theorem Memory.read_writeList (m : Memory α) (i : Nat) (xs : List α) (k : Nat) :
    (m.writeList i xs).read k = if i ≤ k ∧ k < i + xs.length then xs[k - i]? else m.read k := by
  induction xs generalizing m i with
  | nil => simp [Memory.writeList]
  | cons x xs ih =>
    simp only [Memory.writeList, ih, Memory.read_write, List.length_cons]
    by_cases hk : k = i
    · subst hk; simp
    · by_cases h : i + 1 ≤ k ∧ k < i + 1 + xs.length
      · have h2 : i ≤ k ∧ k < i + (xs.length + 1) := by omega
        rw [if_pos h, if_pos h2]
        have : k - i = k - (i + 1) + 1 := by omega
        rw [this, List.getElem?_cons_succ]
      · have h2 : ¬(i ≤ k ∧ k < i + (xs.length + 1)) := by omega
        rw [if_neg h, if_neg h2, if_neg hk]

/-- A list written from index 0 on. -/
theorem Memory.read_writeList_zero (m : Memory α) (xs : List α) (k : Nat) :
    (m.writeList 0 xs).read k = if k < xs.length then xs[k]? else m.read k := by
  simp [Memory.read_writeList]

/-- Every index of a written buffer was there before, or is the one written. -/
theorem Memory.mem_write {m : Memory α} {i : Nat} {x : α} {p : Nat × α} (h : p ∈ m.write i x) : p = (i, x) ∨ p ∈ m := by
  induction m with
  | nil => simpa [Memory.write] using h
  | cons q m ih =>
    obtain ⟨j, v⟩ := q
    simp only [Memory.write] at h
    split at h
    · simpa using h
    · split at h
      · rcases List.mem_cons.1 h with h | h
        · exact .inl h
        · exact .inr (List.mem_cons_of_mem _ h)
      · rcases List.mem_cons.1 h with h | h
        · exact .inr (h ▸ List.mem_cons_self)
        · exact (ih h).imp id (List.mem_cons_of_mem _)

/-- A write keeps the canonical form. -/
theorem Memory.wf_write {m : Memory α} (h : m.wf) (i : Nat) (x : α) : (m.write i x).wf := by
  induction m with
  | nil => simp [Memory.write, Memory.wf]
  | cons q m ih =>
    obtain ⟨j, v⟩ := q
    have h' := List.pairwise_cons.1 h
    simp only [Memory.write]
    split
    · rename_i hij
      refine List.pairwise_cons.2 ⟨fun p hp => ?_, h⟩
      rcases List.mem_cons.1 hp with rfl | hp
      · exact hij
      · exact lt_trans hij (h'.1 p hp)
    · split
      · rename_i hij; subst hij
        exact List.pairwise_cons.2 ⟨h'.1, h'.2⟩
      · refine List.pairwise_cons.2 ⟨fun p hp => ?_, ih h'.2⟩
        rcases Memory.mem_write hp with rfl | hp
        · simp only; omega
        · exact h'.1 p hp

/-- A list write keeps the canonical form. -/
theorem Memory.wf_writeList {m : Memory α} (h : m.wf) (i : Nat) (xs : List α) : (m.writeList i xs).wf := by
  induction xs generalizing m i with
  | nil => exact h
  | cons x xs ih => exact ih (Memory.wf_write h i x) (i + 1)

/-- A list write below a bound keeps every index below it. -/
theorem Memory.bound_writeList {m : Memory α} {n : Nat} (h : ∀ p ∈ m, p.1 < n) (i : Nat) (xs : List α)
    (hi : i + xs.length ≤ n) : ∀ p ∈ m.writeList i xs, p.1 < n := by
  induction xs generalizing m i with
  | nil => exact h
  | cons x xs ih =>
    simp only [List.length_cons] at hi
    refine ih (fun p hp => ?_) (i + 1) (by omega)
    rcases Memory.mem_write hp with rfl | hp
    · simp only; omega
    · exact h p hp

/-- The buffers of the reset state are in canonical form. -/
theorem State.reset_memory_wf : State.reset.inBuf.wf ∧ State.reset.outBuf.wf ∧ State.reset.fdesc.wf :=
  ⟨List.Pairwise.nil, List.Pairwise.nil, List.Pairwise.nil⟩

end Sys2Proof.Machine
end

