-- ==== Sys2Proof/Laws/State.lean ====
section
/-! SUPPORT. What each update of the state does to each of its fields, true by definition, so that no proof unfolds a record
update. -/

namespace Sys2Proof.Machine

variable (s : State)

/-! ### tick -/

@[simp] theorem State.tick_cfg (n : Nat) : (s.tick n).cfg = s.cfg := rfl
@[simp] theorem State.tick_cmd (n : Nat) : (s.tick n).cmd = s.cmd := rfl
@[simp] theorem State.tick_pending (n : Nat) : (s.tick n).pending = s.pending := rfl
@[simp] theorem State.tick_status (n : Nat) : (s.tick n).status = s.status := rfl
@[simp] theorem State.tick_tblBuilt (n : Nat) : (s.tick n).tblBuilt = s.tblBuilt := rfl
@[simp] theorem State.tick_opnd (n : Nat) : (s.tick n).opnd = s.opnd := rfl
@[simp] theorem State.tick_outs (n : Nat) : (s.tick n).outs = s.outs := rfl
@[simp] theorem State.tick_inBuf (n : Nat) : (s.tick n).inBuf = s.inBuf := rfl
@[simp] theorem State.tick_outBuf (n : Nat) : (s.tick n).outBuf = s.outBuf := rfl
@[simp] theorem State.tick_fdesc (n : Nat) : (s.tick n).fdesc = s.fdesc := rfl
@[simp] theorem State.tick_txn (n : Nat) : (s.tick n).txn = s.txn := rfl
@[simp] theorem State.tick_host (n : Nat) : (s.tick n).host = s.host := rfl
@[simp] theorem State.tick_draws (n : Nat) : (s.tick n).draws = s.draws + n := rfl

/-! ### drawTable -/

@[simp] theorem State.drawTable_cfg : (s.drawTable).cfg = s.cfg := rfl
@[simp] theorem State.drawTable_cmd : (s.drawTable).cmd = s.cmd := rfl
@[simp] theorem State.drawTable_pending : (s.drawTable).pending = s.pending := rfl
@[simp] theorem State.drawTable_status : (s.drawTable).status = s.status := rfl
@[simp] theorem State.drawTable_tblBuilt : (s.drawTable).tblBuilt = (s.tblBuilt || Config.freeBool s.draws) := rfl
@[simp] theorem State.drawTable_opnd : (s.drawTable).opnd = s.opnd := rfl
@[simp] theorem State.drawTable_outs : (s.drawTable).outs = s.outs := rfl
@[simp] theorem State.drawTable_inBuf : (s.drawTable).inBuf = s.inBuf := rfl
@[simp] theorem State.drawTable_outBuf : (s.drawTable).outBuf = s.outBuf := rfl
@[simp] theorem State.drawTable_fdesc : (s.drawTable).fdesc = s.fdesc := rfl
@[simp] theorem State.drawTable_txn : (s.drawTable).txn = s.txn := rfl
@[simp] theorem State.drawTable_host : (s.drawTable).host = s.host := rfl
@[simp] theorem State.drawTable_draws : (s.drawTable).draws = s.draws + 1 := rfl

/-! ### noteTable -/

@[simp] theorem State.noteTable_cfg (b : Bool) : (s.noteTable b).cfg = s.cfg := rfl
@[simp] theorem State.noteTable_cmd (b : Bool) : (s.noteTable b).cmd = s.cmd := rfl
@[simp] theorem State.noteTable_pending (b : Bool) : (s.noteTable b).pending = s.pending := rfl
@[simp] theorem State.noteTable_status (b : Bool) : (s.noteTable b).status = s.status := rfl
@[simp] theorem State.noteTable_tblBuilt (b : Bool) : (s.noteTable b).tblBuilt = (s.tblBuilt || b) := rfl
@[simp] theorem State.noteTable_opnd (b : Bool) : (s.noteTable b).opnd = s.opnd := rfl
@[simp] theorem State.noteTable_outs (b : Bool) : (s.noteTable b).outs = s.outs := rfl
@[simp] theorem State.noteTable_inBuf (b : Bool) : (s.noteTable b).inBuf = s.inBuf := rfl
@[simp] theorem State.noteTable_outBuf (b : Bool) : (s.noteTable b).outBuf = s.outBuf := rfl
@[simp] theorem State.noteTable_fdesc (b : Bool) : (s.noteTable b).fdesc = s.fdesc := rfl
@[simp] theorem State.noteTable_txn (b : Bool) : (s.noteTable b).txn = s.txn := rfl
@[simp] theorem State.noteTable_host (b : Bool) : (s.noteTable b).host = s.host := rfl
@[simp] theorem State.noteTable_draws (b : Bool) : (s.noteTable b).draws = s.draws := rfl

/-! ### setResult -/

@[simp] theorem State.setResult_cfg (v : Half) : (s.setResult v).cfg = s.cfg := rfl
@[simp] theorem State.setResult_cmd (v : Half) : (s.setResult v).cmd = s.cmd := rfl
@[simp] theorem State.setResult_pending (v : Half) : (s.setResult v).pending = s.pending := rfl
@[simp] theorem State.setResult_status (v : Half) : (s.setResult v).status = s.status := rfl
@[simp] theorem State.setResult_tblBuilt (v : Half) : (s.setResult v).tblBuilt = s.tblBuilt := rfl
@[simp] theorem State.setResult_opnd (v : Half) : (s.setResult v).opnd = s.opnd := rfl
@[simp] theorem State.setResult_outs (v : Half) : (s.setResult v).outs = { s.outs with result := v } := rfl
@[simp] theorem State.setResult_inBuf (v : Half) : (s.setResult v).inBuf = s.inBuf := rfl
@[simp] theorem State.setResult_outBuf (v : Half) : (s.setResult v).outBuf = s.outBuf := rfl
@[simp] theorem State.setResult_fdesc (v : Half) : (s.setResult v).fdesc = s.fdesc := rfl
@[simp] theorem State.setResult_txn (v : Half) : (s.setResult v).txn = s.txn := rfl
@[simp] theorem State.setResult_host (v : Half) : (s.setResult v).host = s.host := rfl
@[simp] theorem State.setResult_draws (v : Half) : (s.setResult v).draws = s.draws := rfl

/-! ### setOut -/

@[simp] theorem State.setOut_cfg (d : List Byte) : (s.setOut d).cfg = s.cfg := rfl
@[simp] theorem State.setOut_cmd (d : List Byte) : (s.setOut d).cmd = s.cmd := rfl
@[simp] theorem State.setOut_pending (d : List Byte) : (s.setOut d).pending = s.pending := rfl
@[simp] theorem State.setOut_status (d : List Byte) : (s.setOut d).status = s.status := rfl
@[simp] theorem State.setOut_tblBuilt (d : List Byte) : (s.setOut d).tblBuilt = s.tblBuilt := rfl
@[simp] theorem State.setOut_opnd (d : List Byte) : (s.setOut d).opnd = s.opnd := rfl
@[simp] theorem State.setOut_outs (d : List Byte) : (s.setOut d).outs = { s.outs with outLen := BitVec.ofNat 16 d.length } := rfl
@[simp] theorem State.setOut_inBuf (d : List Byte) : (s.setOut d).inBuf = s.inBuf := rfl
@[simp] theorem State.setOut_outBuf (d : List Byte) : (s.setOut d).outBuf = Memory.writeList s.outBuf 0 d := rfl
@[simp] theorem State.setOut_fdesc (d : List Byte) : (s.setOut d).fdesc = s.fdesc := rfl
@[simp] theorem State.setOut_txn (d : List Byte) : (s.setOut d).txn = s.txn := rfl
@[simp] theorem State.setOut_host (d : List Byte) : (s.setOut d).host = s.host := rfl
@[simp] theorem State.setOut_draws (d : List Byte) : (s.setOut d).draws = s.draws := rfl

/-! ### setNone -/

@[simp] theorem State.setNone_cfg : (s.setNone).cfg = s.cfg := rfl
@[simp] theorem State.setNone_cmd : (s.setNone).cmd = s.cmd := rfl
@[simp] theorem State.setNone_pending : (s.setNone).pending = s.pending := rfl
@[simp] theorem State.setNone_status : (s.setNone).status = s.status := rfl
@[simp] theorem State.setNone_tblBuilt : (s.setNone).tblBuilt = s.tblBuilt := rfl
@[simp] theorem State.setNone_opnd : (s.setNone).opnd = s.opnd := rfl
@[simp] theorem State.setNone_outs : (s.setNone).outs = { s.outs with flags := { s.outs.flags with none := true } } := rfl
@[simp] theorem State.setNone_inBuf : (s.setNone).inBuf = s.inBuf := rfl
@[simp] theorem State.setNone_outBuf : (s.setNone).outBuf = s.outBuf := rfl
@[simp] theorem State.setNone_fdesc : (s.setNone).fdesc = s.fdesc := rfl
@[simp] theorem State.setNone_txn : (s.setNone).txn = s.txn := rfl
@[simp] theorem State.setNone_host : (s.setNone).host = s.host := rfl
@[simp] theorem State.setNone_draws : (s.setNone).draws = s.draws := rfl

/-! ### setEst -/

@[simp] theorem State.setEst_cfg (e : BitVec 2) : (s.setEst e).cfg = s.cfg := rfl
@[simp] theorem State.setEst_cmd (e : BitVec 2) : (s.setEst e).cmd = s.cmd := rfl
@[simp] theorem State.setEst_pending (e : BitVec 2) : (s.setEst e).pending = s.pending := rfl
@[simp] theorem State.setEst_status (e : BitVec 2) : (s.setEst e).status = s.status := rfl
@[simp] theorem State.setEst_tblBuilt (e : BitVec 2) : (s.setEst e).tblBuilt = s.tblBuilt := rfl
@[simp] theorem State.setEst_opnd (e : BitVec 2) : (s.setEst e).opnd = s.opnd := rfl
@[simp] theorem State.setEst_outs (e : BitVec 2) : (s.setEst e).outs = { s.outs with flags := { s.outs.flags with est := e } } := rfl
@[simp] theorem State.setEst_inBuf (e : BitVec 2) : (s.setEst e).inBuf = s.inBuf := rfl
@[simp] theorem State.setEst_outBuf (e : BitVec 2) : (s.setEst e).outBuf = s.outBuf := rfl
@[simp] theorem State.setEst_fdesc (e : BitVec 2) : (s.setEst e).fdesc = s.fdesc := rfl
@[simp] theorem State.setEst_txn (e : BitVec 2) : (s.setEst e).txn = s.txn := rfl
@[simp] theorem State.setEst_host (e : BitVec 2) : (s.setEst e).host = s.host := rfl
@[simp] theorem State.setEst_draws (e : BitVec 2) : (s.setEst e).draws = s.draws := rfl

/-! ### setTxn -/

@[simp] theorem State.setTxn_cfg (t : TxnRecord) : (s.setTxn t).cfg = s.cfg := rfl
@[simp] theorem State.setTxn_cmd (t : TxnRecord) : (s.setTxn t).cmd = s.cmd := rfl
@[simp] theorem State.setTxn_pending (t : TxnRecord) : (s.setTxn t).pending = s.pending := rfl
@[simp] theorem State.setTxn_status (t : TxnRecord) : (s.setTxn t).status = s.status := rfl
@[simp] theorem State.setTxn_tblBuilt (t : TxnRecord) : (s.setTxn t).tblBuilt = s.tblBuilt := rfl
@[simp] theorem State.setTxn_opnd (t : TxnRecord) : (s.setTxn t).opnd = s.opnd := rfl
@[simp] theorem State.setTxn_outs (t : TxnRecord) : (s.setTxn t).outs = s.outs := rfl
@[simp] theorem State.setTxn_inBuf (t : TxnRecord) : (s.setTxn t).inBuf = s.inBuf := rfl
@[simp] theorem State.setTxn_outBuf (t : TxnRecord) : (s.setTxn t).outBuf = s.outBuf := rfl
@[simp] theorem State.setTxn_fdesc (t : TxnRecord) : (s.setTxn t).fdesc = s.fdesc := rfl
@[simp] theorem State.setTxn_txn (t : TxnRecord) : (s.setTxn t).txn = t := rfl
@[simp] theorem State.setTxn_host (t : TxnRecord) : (s.setTxn t).host = s.host := rfl
@[simp] theorem State.setTxn_draws (t : TxnRecord) : (s.setTxn t).draws = s.draws := rfl

/-! ### setFrames -/

@[simp] theorem State.setFrames_cfg (base : Nat) (b : List Byte) (c : Scan) : (s.setFrames base b c).cfg = s.cfg := rfl
@[simp] theorem State.setFrames_cmd (base : Nat) (b : List Byte) (c : Scan) : (s.setFrames base b c).cmd = s.cmd := rfl
@[simp] theorem State.setFrames_pending (base : Nat) (b : List Byte) (c : Scan) : (s.setFrames base b c).pending = s.pending := rfl
@[simp] theorem State.setFrames_status (base : Nat) (b : List Byte) (c : Scan) : (s.setFrames base b c).status = s.status := rfl
@[simp] theorem State.setFrames_tblBuilt (base : Nat) (b : List Byte) (c : Scan) : (s.setFrames base b c).tblBuilt = s.tblBuilt := rfl
@[simp] theorem State.setFrames_opnd (base : Nat) (b : List Byte) (c : Scan) : (s.setFrames base b c).opnd = s.opnd := rfl
@[simp] theorem State.setFrames_inBuf (base : Nat) (b : List Byte) (c : Scan) : (s.setFrames base b c).inBuf = s.inBuf := rfl
@[simp] theorem State.setFrames_outBuf (base : Nat) (b : List Byte) (c : Scan) : (s.setFrames base b c).outBuf = s.outBuf := rfl
@[simp] theorem State.setFrames_fdesc (base : Nat) (b : List Byte) (c : Scan) : (s.setFrames base b c).fdesc = Memory.writeList s.fdesc 0 (c.frames.map (fun f => descWord (base + f.1) f.2)) := rfl
@[simp] theorem State.setFrames_txn (base : Nat) (b : List Byte) (c : Scan) : (s.setFrames base b c).txn = s.txn := rfl
@[simp] theorem State.setFrames_host (base : Nat) (b : List Byte) (c : Scan) : (s.setFrames base b c).host = s.host := rfl
@[simp] theorem State.setFrames_draws (base : Nat) (b : List Byte) (c : Scan) : (s.setFrames base b c).draws = s.draws := rfl

/-! ### clearOutputs -/

@[simp] theorem State.clearOutputs_cfg : (s.clearOutputs).cfg = s.cfg := rfl
@[simp] theorem State.clearOutputs_cmd : (s.clearOutputs).cmd = s.cmd := rfl
@[simp] theorem State.clearOutputs_pending : (s.clearOutputs).pending = s.pending := rfl
@[simp] theorem State.clearOutputs_status : (s.clearOutputs).status = s.status := rfl
@[simp] theorem State.clearOutputs_tblBuilt : (s.clearOutputs).tblBuilt = s.tblBuilt := rfl
@[simp] theorem State.clearOutputs_opnd : (s.clearOutputs).opnd = s.opnd := rfl
@[simp] theorem State.clearOutputs_outs : (s.clearOutputs).outs = OutputRegs.zero := rfl
@[simp] theorem State.clearOutputs_inBuf : (s.clearOutputs).inBuf = s.inBuf := rfl
@[simp] theorem State.clearOutputs_outBuf : (s.clearOutputs).outBuf = s.outBuf := rfl
@[simp] theorem State.clearOutputs_fdesc : (s.clearOutputs).fdesc = s.fdesc := rfl
@[simp] theorem State.clearOutputs_txn : (s.clearOutputs).txn = s.txn := rfl
@[simp] theorem State.clearOutputs_host : (s.clearOutputs).host = s.host := rfl
@[simp] theorem State.clearOutputs_draws : (s.clearOutputs).draws = s.draws := rfl

/-! ### post -/

@[simp] theorem State.post_cfg (st : Status) : (s.post st).cfg = s.cfg := rfl
@[simp] theorem State.post_cmd (st : Status) : (s.post st).cmd = s.cmd := rfl
@[simp] theorem State.post_pending (st : Status) : (s.post st).pending = false := rfl
@[simp] theorem State.post_status (st : Status) : (s.post st).status = st := rfl
@[simp] theorem State.post_tblBuilt (st : Status) : (s.post st).tblBuilt = s.tblBuilt := rfl
@[simp] theorem State.post_opnd (st : Status) : (s.post st).opnd = s.opnd := rfl
@[simp] theorem State.post_outs (st : Status) : (s.post st).outs = s.outs := rfl
@[simp] theorem State.post_inBuf (st : Status) : (s.post st).inBuf = s.inBuf := rfl
@[simp] theorem State.post_outBuf (st : Status) : (s.post st).outBuf = s.outBuf := rfl
@[simp] theorem State.post_fdesc (st : Status) : (s.post st).fdesc = s.fdesc := rfl
@[simp] theorem State.post_txn (st : Status) : (s.post st).txn = s.txn := rfl
@[simp] theorem State.post_host (st : Status) : (s.post st).host = s.host := rfl
@[simp] theorem State.post_draws (st : Status) : (s.post st).draws = s.draws := rfl

/-! ### rollback -/

@[simp] theorem State.rollback_cfg (a : State) : (s.rollback a).cfg = s.cfg := rfl
@[simp] theorem State.rollback_cmd (a : State) : (s.rollback a).cmd = s.cmd := rfl
@[simp] theorem State.rollback_pending (a : State) : (s.rollback a).pending = s.pending := rfl
@[simp] theorem State.rollback_status (a : State) : (s.rollback a).status = s.status := rfl
@[simp] theorem State.rollback_tblBuilt (a : State) : (s.rollback a).tblBuilt = a.tblBuilt := rfl
@[simp] theorem State.rollback_opnd (a : State) : (s.rollback a).opnd = s.opnd := rfl
@[simp] theorem State.rollback_outs (a : State) : (s.rollback a).outs = s.outs := rfl
@[simp] theorem State.rollback_inBuf (a : State) : (s.rollback a).inBuf = s.inBuf := rfl
@[simp] theorem State.rollback_outBuf (a : State) : (s.rollback a).outBuf = s.outBuf := rfl
@[simp] theorem State.rollback_fdesc (a : State) : (s.rollback a).fdesc = s.fdesc := rfl
@[simp] theorem State.rollback_txn (a : State) : (s.rollback a).txn = s.txn := rfl
@[simp] theorem State.rollback_host (a : State) : (s.rollback a).host = s.host := rfl
@[simp] theorem State.rollback_draws (a : State) : (s.rollback a).draws = a.draws := rfl

/-! ### readIn -/

@[simp] theorem State.readIn_cfg : (s.readIn).cfg = s.cfg := rfl
@[simp] theorem State.readIn_cmd : (s.readIn).cmd = s.cmd := rfl
@[simp] theorem State.readIn_pending : (s.readIn).pending = s.pending := rfl
@[simp] theorem State.readIn_status : (s.readIn).status = s.status := rfl
@[simp] theorem State.readIn_tblBuilt : (s.readIn).tblBuilt = s.tblBuilt := rfl
@[simp] theorem State.readIn_opnd : (s.readIn).opnd = s.opnd := rfl
@[simp] theorem State.readIn_outs : (s.readIn).outs = s.outs := rfl
@[simp] theorem State.readIn_inBuf : (s.readIn).inBuf = s.inBuf := rfl
@[simp] theorem State.readIn_outBuf : (s.readIn).outBuf = s.outBuf := rfl
@[simp] theorem State.readIn_fdesc : (s.readIn).fdesc = s.fdesc := rfl
@[simp] theorem State.readIn_txn : (s.readIn).txn = s.txn := rfl
@[simp] theorem State.readIn_host : (s.readIn).host = s.host := rfl
@[simp] theorem State.readIn_draws : (s.readIn).draws = s.draws + s.opnd.inLen.toNat := rfl

/-! ### issue -/

@[simp] theorem State.issue_cfg (w : Word) : (s.issue w).cfg = s.cfg := rfl
@[simp] theorem State.issue_cmd (w : Word) : (s.issue w).cmd = w := rfl
@[simp] theorem State.issue_pending (w : Word) : (s.issue w).pending = true := rfl
@[simp] theorem State.issue_status (w : Word) : (s.issue w).status = s.status := rfl
@[simp] theorem State.issue_tblBuilt (w : Word) : (s.issue w).tblBuilt = s.tblBuilt := rfl
@[simp] theorem State.issue_opnd (w : Word) : (s.issue w).opnd = s.opnd := rfl
@[simp] theorem State.issue_outs (w : Word) : (s.issue w).outs = s.outs := rfl
@[simp] theorem State.issue_inBuf (w : Word) : (s.issue w).inBuf = s.inBuf := rfl
@[simp] theorem State.issue_outBuf (w : Word) : (s.issue w).outBuf = s.outBuf := rfl
@[simp] theorem State.issue_fdesc (w : Word) : (s.issue w).fdesc = s.fdesc := rfl
@[simp] theorem State.issue_txn (w : Word) : (s.issue w).txn = s.txn := rfl
@[simp] theorem State.issue_host (w : Word) : (s.issue w).host = s.host := rfl
@[simp] theorem State.issue_draws (w : Word) : (s.issue w).draws = s.draws := rfl

/-! ### popEvent -/

@[simp] theorem State.popEvent_cfg (l : List Event) : (s.popEvent l).cfg = s.cfg := rfl
@[simp] theorem State.popEvent_cmd (l : List Event) : (s.popEvent l).cmd = s.cmd := rfl
@[simp] theorem State.popEvent_pending (l : List Event) : (s.popEvent l).pending = s.pending := rfl
@[simp] theorem State.popEvent_status (l : List Event) : (s.popEvent l).status = s.status := rfl
@[simp] theorem State.popEvent_tblBuilt (l : List Event) : (s.popEvent l).tblBuilt = s.tblBuilt := rfl
@[simp] theorem State.popEvent_opnd (l : List Event) : (s.popEvent l).opnd = s.opnd := rfl
@[simp] theorem State.popEvent_outs (l : List Event) : (s.popEvent l).outs = s.outs := rfl
@[simp] theorem State.popEvent_inBuf (l : List Event) : (s.popEvent l).inBuf = s.inBuf := rfl
@[simp] theorem State.popEvent_outBuf (l : List Event) : (s.popEvent l).outBuf = s.outBuf := rfl
@[simp] theorem State.popEvent_fdesc (l : List Event) : (s.popEvent l).fdesc = s.fdesc := rfl
@[simp] theorem State.popEvent_txn (l : List Event) : (s.popEvent l).txn = s.txn := rfl
@[simp] theorem State.popEvent_host (l : List Event) : (s.popEvent l).host = { s.host with events := l } := rfl
@[simp] theorem State.popEvent_draws (l : List Event) : (s.popEvent l).draws = s.draws := rfl

/-! ### answer -/

@[simp] theorem State.answer_cfg (r : Reply) : (s.answer r).cfg = s.cfg := rfl
@[simp] theorem State.answer_cmd (r : Reply) : (s.answer r).cmd = s.cmd := rfl
@[simp] theorem State.answer_pending (r : Reply) : (s.answer r).pending = s.pending := rfl
@[simp] theorem State.answer_status (r : Reply) : (s.answer r).status = s.status := rfl
@[simp] theorem State.answer_tblBuilt (r : Reply) : (s.answer r).tblBuilt = s.tblBuilt := rfl
@[simp] theorem State.answer_opnd (r : Reply) : (s.answer r).opnd = s.opnd := rfl
@[simp] theorem State.answer_outs (r : Reply) : (s.answer r).outs = s.outs := rfl
@[simp] theorem State.answer_inBuf (r : Reply) : (s.answer r).inBuf = s.inBuf := rfl
@[simp] theorem State.answer_outBuf (r : Reply) : (s.answer r).outBuf = s.outBuf := rfl
@[simp] theorem State.answer_fdesc (r : Reply) : (s.answer r).fdesc = s.fdesc := rfl
@[simp] theorem State.answer_txn (r : Reply) : (s.answer r).txn = s.txn := rfl
@[simp] theorem State.answer_host (r : Reply) : (s.answer r).host = { s.host with replies := s.host.replies ++ [r] } := rfl
@[simp] theorem State.answer_draws (r : Reply) : (s.answer r).draws = s.draws := rfl

end Sys2Proof.Machine
end

