-- ==== Sys2Proof/Laws/Ops.lean ====
section
/-! SUPPORT. What the shared operations can do, said once: the operand forms, the combinators a command's body is made of,
and `perform`. Proofs about a command cite these and do not unfold them. -/

namespace Sys2Proof.Machine

/-! ### Operands -/

@[simp] theorem State.inBytes_clearOutputs (s : State) : s.clearOutputs.inBytes = s.inBytes := rfl
@[simp] theorem State.inBytes_noteTable (s : State) (b : Bool) : (s.noteTable b).inBytes = s.inBytes := rfl
@[simp] theorem State.inBound_clearOutputs (s : State) : s.clearOutputs.inBound = s.inBound := rfl
@[simp] theorem State.seqPair_clearOutputs (s : State) : s.clearOutputs.seqPair = s.seqPair := rfl
@[simp] theorem State.seqPair_readIn (s : State) : s.readIn.seqPair = s.seqPair := rfl
@[simp] theorem State.xunit_clearOutputs (s : State) : s.clearOutputs.xunit = s.xunit := rfl
@[simp] theorem State.xunit_readIn (s : State) : s.readIn.xunit = s.xunit := rfl
@[simp] theorem State.tidx_clearOutputs (s : State) : s.clearOutputs.tidx = s.tidx := rfl

/-- IN has LEN bytes (R34). -/
@[simp] theorem State.length_inBytes (s : State) : s.inBytes.length = s.opnd.inLen.toNat := by simp [State.inBytes]

/-- A byte of IN is the byte written there, or a draw (R34, R50). -/
theorem State.getElem_inBytes (s : State) (k : Nat) (h : k < s.inBytes.length) :
    s.inBytes[k] = (s.inBuf.read (s.opnd.inOfs.toNat + k)).getD (Config.freeByte (s.draws + k)) := by
  simp [State.inBytes]

/-- The bound check is the inequality of R353. -/
theorem State.inBound_iff (s : State) : s.inBound = true ↔ s.opnd.inOfs.toNat + s.opnd.inLen.toNat ≤ s.cfg.bufCap := by
  simp [State.inBound]

/-! ### What a body can do -/

/-- The state a body's result carries. -/
def BodyResult.state : BodyResult → State
  | .done s => s
  | .raise _ s => s

/-- What no body changes: everything the engine does not write, STATUS and BUSY (which `perform` writes), and TBL_BUILT is
never lost. -/
structure Kept (s t : State) : Prop where
  cfg : t.cfg = s.cfg
  cmd : t.cmd = s.cmd
  pending : t.pending = s.pending
  status : t.status = s.status
  opnd : t.opnd = s.opnd
  inBuf : t.inBuf = s.inBuf
  host : t.host = s.host
  table : s.tblBuilt = true → t.tblBuilt = true

theorem Kept.refl (s : State) : Kept s s := ⟨rfl, rfl, rfl, rfl, rfl, rfl, rfl, id⟩

theorem Kept.trans {s t u : State} (h : Kept s t) (k : Kept t u) : Kept s u :=
  ⟨k.cfg.trans h.cfg, k.cmd.trans h.cmd, k.pending.trans h.pending, k.status.trans h.status, k.opnd.trans h.opnd,
    k.inBuf.trans h.inBuf, k.host.trans h.host, fun e => k.table (h.table e)⟩

theorem kept_tick (s : State) (n : Nat) : Kept s (s.tick n) := ⟨rfl, rfl, rfl, rfl, rfl, rfl, rfl, id⟩
theorem kept_readIn (s : State) : Kept s s.readIn := kept_tick s _
theorem kept_drawTable (s : State) : Kept s s.drawTable := ⟨rfl, rfl, rfl, rfl, rfl, rfl, rfl, fun h => by simp [h]⟩
theorem kept_noteTable (s : State) (b : Bool) : Kept s (s.noteTable b) :=
  ⟨rfl, rfl, rfl, rfl, rfl, rfl, rfl, fun h => by simp [h]⟩
theorem kept_setResult (s : State) (v : Half) : Kept s (s.setResult v) := ⟨rfl, rfl, rfl, rfl, rfl, rfl, rfl, id⟩
theorem kept_setOut (s : State) (d : List Byte) : Kept s (s.setOut d) := ⟨rfl, rfl, rfl, rfl, rfl, rfl, rfl, id⟩
theorem kept_setNone (s : State) : Kept s s.setNone := ⟨rfl, rfl, rfl, rfl, rfl, rfl, rfl, id⟩
theorem kept_setEst (s : State) (e : BitVec 2) : Kept s (s.setEst e) := ⟨rfl, rfl, rfl, rfl, rfl, rfl, rfl, id⟩
theorem kept_setTxn (s : State) (t : TxnRecord) : Kept s (s.setTxn t) := ⟨rfl, rfl, rfl, rfl, rfl, rfl, rfl, id⟩
theorem kept_setFrames (s : State) (base : Nat) (b : List Byte) (c : Scan) : Kept s (s.setFrames base b c) :=
  ⟨rfl, rfl, rfl, rfl, rfl, rfl, rfl, id⟩

/-- A body keeps what no body changes. -/
def Body.Keeps (b : Body) : Prop := ∀ s, Kept s (b s).state

theorem keeps_raiseBody (r : Reason) : Body.Keeps (raiseBody r) := fun s => Kept.refl s

theorem keeps_withBound {b : Body} (h : b.Keeps) : Body.Keeps (withBound b) := by
  intro s
  unfold withBound
  split
  · exact h s
  · exact Kept.refl s

theorem keeps_withIn {b : List Byte → Body} (h : ∀ f, (b f).Keeps) : Body.Keeps (withIn b) :=
  keeps_withBound fun s => (kept_readIn s).trans (h _ _)

theorem keeps_withTxn {b : Body} (h : b.Keeps) : Body.Keeps (withTxn b) := by
  intro s
  unfold withTxn
  split
  · exact h s
  · exact Kept.refl s

theorem keeps_withProto (proto : BitVec 2) (acc : List TxnState) {b : Protocol → Body} (h : ∀ p, (b p).Keeps) :
    Body.Keeps (withProto proto acc b) := by
  intro s
  unfold withProto
  split
  · exact Kept.refl s
  · split
    · exact h _ s
    · exact Kept.refl s

theorem keeps_outOrRaise (r : Except Reason (List Byte)) : Body.Keeps (outOrRaise r) := by
  intro s
  unfold outOrRaise
  split
  · exact Kept.refl s
  · exact kept_setOut s _

/-! ### Perform -/

/-- `perform`, said once: the body completes and ERR and REASON are 0, or it raises and STATUS is all that is written, but
for TBL_BUILT, which is a draw unless it is 1, and the draws (R355). -/
theorem perform_cases (b : Body) (s : State) :
    (∃ t, b s.clearOutputs = .done t ∧ perform b s = t.post Status.ok) ∨
    (∃ r t, b s.clearOutputs = .raise r t ∧
      perform b s = { s with
        outs := OutputRegs.zero, status := Status.failed r, pending := false
        tblBuilt := t.tblBuilt || Config.freeBool t.draws, draws := t.draws + 1 }) := by
  unfold perform
  cases h : b s.clearOutputs with
  | done t => exact .inl ⟨t, rfl, rfl⟩
  | raise r t => exact .inr ⟨r, t, rfl, rfl⟩

theorem perform_done {b : Body} {s t : State} (h : b s.clearOutputs = .done t) : perform b s = t.post Status.ok := by
  simp [perform, h]

theorem perform_raise {b : Body} {s t : State} {r : Reason} (h : b s.clearOutputs = .raise r t) :
    perform b s = { s with
      outs := OutputRegs.zero, status := Status.failed r, pending := false
      tblBuilt := t.tblBuilt || Config.freeBool t.draws, draws := t.draws + 1 } := by
  simp only [perform, h]; rfl

@[simp] theorem perform_pending (b : Body) (s : State) : (perform b s).pending = false := by
  rcases perform_cases b s with ⟨t, -, h⟩ | ⟨r, t, -, h⟩ <;> rw [h] <;> rfl

/-- What a command leaves as it was, whether it completes or raises (R388). -/
theorem perform_keeps {b : Body} (hb : b.Keeps) (s : State) :
    (perform b s).cfg = s.cfg ∧ (perform b s).cmd = s.cmd ∧ (perform b s).opnd = s.opnd ∧
    (perform b s).inBuf = s.inBuf ∧ (perform b s).host = s.host ∧ (s.tblBuilt = true → (perform b s).tblBuilt = true) := by
  have hk := hb s.clearOutputs
  rcases perform_cases b s with ⟨t, h, e⟩ | ⟨r, t, h, e⟩ <;> rw [h] at hk <;> rw [e]
  · exact ⟨hk.cfg, hk.cmd, hk.opnd, hk.inBuf, hk.host, hk.table⟩
  · exact ⟨rfl, rfl, rfl, rfl, rfl, fun h => by simp [show t.tblBuilt = true from hk.table h]⟩

/-- A failed command, or ERR = 0 (R351). -/
theorem Status.failed_err_ne_zero (r : Reason) : (Status.failed r).err ≠ 0 := by cases r <;> decide

/-! ### The combinators, run -/

theorem withBound_in {b : Body} {s : State} (h : s.inBound = true) : withBound b s = b s := by simp [withBound, h]
theorem withBound_out {b : Body} {s : State} (h : s.inBound = false) : withBound b s = .raise .inlen s := by
  simp [withBound, h]
theorem withIn_in {b : List Byte → Body} {s : State} (h : s.inBound = true) : withIn b s = b s.inBytes s.readIn := by
  simp [withIn, withBound, h]
theorem withIn_out {b : List Byte → Body} {s : State} (h : s.inBound = false) : withIn b s = .raise .inlen s := by
  simp [withIn, withBound, h]
theorem withTxn_has {b : Body} {s : State} (h : s.cfg.hasTxn = true) : withTxn b s = b s := by simp [withTxn, h]
theorem withTxn_none {b : Body} {s : State} (h : s.cfg.hasTxn = false) : withTxn b s = .raise .opcode s := by
  simp [withTxn, h]
theorem withProto_three {acc : List TxnState} {b : Protocol → Body} {s : State} :
    withProto 3 acc b s = .raise .protoTag s := rfl
theorem withProto_in {acc : List TxnState} {b : Protocol → Body} {s : State} {q : BitVec 2} {p : Protocol}
    (hp : protocolOf q = some p) (h : s.txn.state ∈ acc) : withProto q acc b s = b p s := by simp [withProto, hp, h]
theorem withProto_out {acc : List TxnState} {b : Protocol → Body} {s : State} {q : BitVec 2} {p : Protocol}
    (hp : protocolOf q = some p) (h : s.txn.state ∉ acc) : withProto q acc b s = .raise .state s := by
  simp [withProto, hp, h]

end Sys2Proof.Machine
end

