-- ==== Sys2Proof/Laws/Bodies.lean ====
section
/-! SUPPORT. Every command is one `perform` of its body, and no body writes what the engine does not write. -/

namespace Sys2Proof.Machine

/-- The body of a command. -/
def bodyOf : Instr → Body
  | .lrc => bodyLrc
  | .crc16 => bodyCrc16
  | .crctab => bodyCrctab
  | .asciiEnc => bodyAsciiEnc
  | .asciiDec => bodyAsciiDec
  | .asciiFrame => bodyAsciiFrame
  | .rtuEnc => bodyRtuEnc
  | .rtuDec => bodyRtuDec
  | .rtuEst req => bodyRtuEst req
  | .rtuFrame req => bodyRtuFrame req
  | .tcpEnc => bodyTcpEnc
  | .tcpValid xseq xunit => bodyTcpValid xseq xunit
  | .tcpDec => bodyTcpDec
  | .tcpFrame => bodyTcpFrame
  | .txnClear => bodyTxnClear
  | .txnSetseq => bodyTxnSetseq
  | .txnSetreq p => bodyTxnSetreq p
  | .txnGetreq p => bodyTxnGetreq p
  | .txnSetrsp p => bodyTxnSetrsp p
  | .txnGetrsp p => bodyTxnGetrsp p
  | .txnNorsp p => bodyTxnNorsp p

/-- Every command answers a next state: one `perform` of its body (R355, R385). -/
theorem exec_eq (i : Instr) (s : State) : exec i s = .next (perform (bodyOf i) s) := by cases i <;> rfl

theorem exec_next {i : Instr} {s t : State} (h : exec i s = .next t) : t = perform (bodyOf i) s := by
  rw [exec_eq] at h; exact (Host.Outcome.next.inj h).symm

theorem keeps_storeRequest (p : Protocol) (f : List Byte) : Body.Keeps (storeRequest p f) := by
  intro s
  unfold storeRequest
  split
  · exact kept_noteTable s _
  · dsimp only
    split
    · exact kept_noteTable s _
    · exact (((kept_noteTable s _).trans (kept_readIn _)).trans (kept_setTxn _ _)).trans (kept_setResult _ _)

theorem keeps_storeResponse (p : Protocol) (d : List Byte) : Body.Keeps (storeResponse p d) := by
  intro s
  unfold storeResponse
  dsimp only
  split
  · exact Kept.refl s
  · exact ((kept_readIn s).trans (kept_setTxn _ _)).trans (kept_setResult _ _)

theorem keeps_setrspTcp (f : List Byte) : Body.Keeps (setrspTcp f) := by
  intro s
  unfold setrspTcp
  split
  · exact Kept.refl s
  · exact (kept_readIn s).trans (keeps_storeResponse _ _ _)

theorem keeps_setrspSerial (p : Protocol) (f : List Byte) : Body.Keeps (setrspSerial p f) := by
  intro s
  unfold setrspSerial
  split
  · exact kept_noteTable s _
  · dsimp only
    split
    · exact kept_noteTable s _
    · exact (kept_noteTable s _).trans (keeps_storeResponse _ _ _)

theorem keeps_renderAdu (p : Protocol) (adu : List Byte) : Body.Keeps (renderAdu p adu) := fun s =>
  (kept_noteTable s _).trans (keeps_outOrRaise _ _)

/-- No body changes what the engine does not write (R388). -/
theorem keeps_bodyOf (i : Instr) : (bodyOf i).Keeps := by
  cases i with
  | lrc =>
    unfold bodyOf bodyLrc
    refine keeps_withIn fun f s => ?_
    split
    exacts [Kept.refl s, kept_setResult s _]
  | crc16 =>
    unfold bodyOf bodyCrc16
    refine keeps_withIn fun f s => ?_
    split
    exacts [Kept.refl s, (kept_noteTable s _).trans (kept_setResult _ _)]
  | crctab => exact fun s => (kept_noteTable s _).trans (kept_setResult _ _)
  | asciiEnc => exact keeps_withIn fun f => keeps_outOrRaise _
  | asciiDec =>
    unfold bodyOf bodyAsciiDec
    exact keeps_withIn fun f s => keeps_outOrRaise _ s
  | asciiFrame =>
    unfold bodyOf bodyAsciiFrame
    exact keeps_withIn fun f s => kept_setFrames s _ _ _
  | rtuEnc =>
    unfold bodyOf bodyRtuEnc
    exact keeps_withIn fun f s => (kept_noteTable s _).trans (keeps_outOrRaise _ _)
  | rtuDec =>
    unfold bodyOf bodyRtuDec
    exact keeps_withIn fun f s => (kept_noteTable s _).trans (keeps_outOrRaise _ _)
  | rtuEst req =>
    unfold bodyOf bodyRtuEst
    refine keeps_withIn fun f s => ?_
    split
    exacts [(kept_setEst s _).trans (kept_setResult _ _), kept_setEst s _, kept_setEst s _]
  | rtuFrame req =>
    unfold bodyOf bodyRtuFrame
    exact keeps_withIn fun f s => kept_setFrames s _ _ _
  | tcpEnc =>
    unfold bodyOf bodyTcpEnc
    exact keeps_withIn fun f s => keeps_outOrRaise _ s
  | tcpValid xseq xunit =>
    unfold bodyOf bodyTcpValid
    refine keeps_withIn fun f s => ?_
    split
    exacts [Kept.refl s, kept_setResult s _]
  | tcpDec =>
    unfold bodyOf bodyTcpDec
    refine keeps_withIn fun f s => ?_
    split
    exacts [Kept.refl s, (kept_setOut s _).trans (kept_setResult _ _)]
  | tcpFrame =>
    unfold bodyOf bodyTcpFrame
    exact keeps_withIn fun f s => kept_setFrames s _ _ _
  | txnClear => exact keeps_withTxn fun s => kept_setTxn s _
  | txnSetseq =>
    unfold bodyOf bodyTxnSetseq
    exact keeps_withTxn (keeps_withIn fun f s => kept_setTxn s _)
  | txnSetreq p =>
    unfold bodyOf bodyTxnSetreq
    exact keeps_withTxn (keeps_withBound (keeps_withProto _ _ fun p s =>
      (kept_readIn s).trans (keeps_storeRequest _ _ _)))
  | txnGetreq p =>
    unfold bodyOf bodyTxnGetreq
    exact keeps_withTxn (keeps_withProto _ _ fun p s => keeps_renderAdu _ _ s)
  | txnSetrsp p =>
    unfold bodyOf bodyTxnSetrsp
    refine keeps_withTxn (keeps_withBound (keeps_withProto _ _ fun p s => ?_))
    split
    exacts [(kept_readIn s).trans (keeps_setrspTcp _ _), (kept_readIn s).trans (keeps_setrspSerial _ _ _),
      (kept_readIn s).trans (keeps_setrspSerial _ _ _)]
  | txnGetrsp p =>
    unfold bodyOf bodyTxnGetrsp
    exact keeps_withTxn (keeps_withProto _ _ fun p s => keeps_renderAdu _ _ s)
  | txnNorsp p =>
    unfold bodyOf bodyTxnNorsp
    refine keeps_withTxn (keeps_withProto _ _ fun p s => ?_)
    dsimp only
    split
    exacts [((kept_setTxn s _).trans (kept_tick _ _)).trans (keeps_outOrRaise _ _),
      (kept_setTxn s _).trans (kept_setNone _), (kept_setTxn s _).trans (kept_setNone _)]

end Sys2Proof.Machine
end

