-- ==== Sys2Proof/Laws/Bus.lean ====
section
/-! SUPPORT. The host bus: where the addresses of each region lie (20_memory R80), and what an access leaves alone. -/

namespace Sys2Proof.Machine

/-- An address below 2^20 is the number it is written with. -/
theorem addr_toNat {n : Nat} (h : n < 1048576) : (BitVec.ofNat 20 n).toNat = n := by simp; omega

/-- The addresses of IN_BUF (R82). -/
theorem locate_inByte {c : Config} (hc : c.Valid) {i : Nat} (h : i < c.bufCap) :
    locate c (BitVec.ofNat 20 (0x10000 + i)) = some (.inByte i) := by
  obtain ⟨h1, h2⟩ := hc
  unfold locate
  rw [addr_toNat (by omega)]
  simp only
  rw [if_neg (by omega), if_pos (by omega)]
  simp

/-- The addresses of OUT_BUF (R83). -/
theorem locate_outByte {c : Config} (hc : c.Valid) {i : Nat} (h : i < c.outCap) :
    locate c (BitVec.ofNat 20 (0x20000 + i)) = some (.outByte i) := by
  obtain ⟨h1, h2⟩ := hc
  have hcap : c.outCap = 2 * c.bufCap + 8 := rfl
  unfold locate
  rw [addr_toNat (by omega)]
  simp only
  rw [if_neg (by omega), if_neg (by omega), if_pos (by omega)]
  simp

/-- The addresses of FDESC: the aligned ones hold a descriptor, the others nothing (R85). -/
theorem locate_desc {c : Config} (hc : c.Valid) {j : Nat} (h : j < 4 * c.bufCap) :
    locate c (BitVec.ofNat 20 (0x40000 + j)) = if j % 4 = 0 then some (.desc (j / 4)) else none := by
  obtain ⟨h1, h2⟩ := hc
  have hcap : c.outCap = 2 * c.bufCap + 8 := rfl
  unfold locate
  rw [addr_toNat (by omega)]
  simp only
  rw [if_neg (by omega), if_neg (by omega), if_neg (by omega), if_pos (by omega)]
  simp only [show 0x40000 + j - 0x40000 = j by omega]
  by_cases hj : j % 4 = 0
  · rw [if_pos (by omega), if_pos hj]
  · rw [if_neg (by omega), if_neg hj]

/-- A located IN_BUF byte lies in the buffer. -/
theorem lt_of_locate_inByte {c : Config} {a : Addr} {i : Nat} (h : locate c a = some (.inByte i)) : i < c.bufCap := by
  unfold locate at h
  dsimp only at h
  split at h
  · split at h
    · cases hr : regAt c.hasTxn (a.toNat / 4) <;> rw [hr] at h <;> cases h
    · cases h
  · split at h
    · have := Loc.inByte.inj (Option.some.inj h); omega
    · split at h
      · cases h
      · split at h
        · split at h <;> cases h
        · cases h

/-- A 4-byte read of a register (R81). -/
theorem hostAccess_readReg {s : State} {a : Addr} {r : Reg} (h : locate s.cfg a = some (.reg r)) :
    hostAccess (.readWord a) s = s.answer (.word (s.readReg r)) := by simp only [hostAccess, hostReadWord, h]

/-- A 4-byte write of a read-write register while BUSY = 0 (R81). -/
theorem hostAccess_writeReg {s : State} {a : Addr} {r : Reg} (v : Word) (h : locate s.cfg a = some (.reg r))
    (hr : r.writable = true) (hp : s.pending = false) :
    hostAccess (.writeWord a v) s = (s.writeReg r v).answer .written := by
  simp only [hostAccess, hostWriteWord, h, hr, hp]; rfl

/-- What no host access changes: the parameters, TBL_BUILT, STATUS, the result registers, the engine's buffers, the record,
and the events to come; and the replies only grow. -/
structure BusKept (s t : State) : Prop where
  cfg : t.cfg = s.cfg
  tblBuilt : t.tblBuilt = s.tblBuilt
  status : t.status = s.status
  outs : t.outs = s.outs
  outBuf : t.outBuf = s.outBuf
  fdesc : t.fdesc = s.fdesc
  txn : t.txn = s.txn
  events : t.host.events = s.host.events
  replies : s.host.replies <+: t.host.replies

theorem busKept_answer (s : State) (r : Reply) : BusKept s (s.answer r) :=
  ⟨rfl, rfl, rfl, rfl, rfl, rfl, rfl, rfl, List.prefix_append _ _⟩

theorem busKept_answerByte (s : State) (b : Option Byte) : BusKept s (s.answerByte b) := by
  cases b <;> exact ⟨rfl, rfl, rfl, rfl, rfl, rfl, rfl, rfl, List.prefix_append _ _⟩

theorem busKept_answerWord (s : State) (v : Option Word) : BusKept s (s.answerWord v) := by
  cases v <;> exact ⟨rfl, rfl, rfl, rfl, rfl, rfl, rfl, rfl, List.prefix_append _ _⟩

theorem busKept_writeReg (s : State) (r : Reg) (v : Word) (a : Reply) : BusKept s ((s.writeReg r v).answer a) := by
  cases r <;> exact ⟨rfl, rfl, rfl, rfl, rfl, rfl, rfl, rfl, List.prefix_append _ _⟩

/-- A host access, whatever it is and whether it faults or not. -/
theorem busKept_hostAccess (x : Access) (s : State) : BusKept s (hostAccess x s) := by
  cases x with
  | readByte a =>
    unfold hostAccess hostReadByte
    dsimp only
    split
    exacts [busKept_answerByte s _, busKept_answerByte s _, busKept_answer s _, busKept_answer s _, busKept_answer s _]
  | readWord a =>
    unfold hostAccess hostReadWord
    dsimp only
    split
    exacts [busKept_answer s _, busKept_answerWord s _, busKept_answer s _, busKept_answer s _, busKept_answer s _]
  | writeByte a b =>
    unfold hostAccess hostWriteByte
    dsimp only
    split
    · split
      exacts [busKept_answer s _, ⟨rfl, rfl, rfl, rfl, rfl, rfl, rfl, rfl, List.prefix_append _ _⟩]
    all_goals exact busKept_answer s _
  | writeWord a v =>
    unfold hostAccess hostWriteWord
    dsimp only
    split
    · split
      · split
        exacts [busKept_answer s _, busKept_writeReg s _ v _]
      · exact busKept_answer s _
    all_goals exact busKept_answer s _

end Sys2Proof.Machine
end

