-- ==== Sys2Proof/Laws/Codec.lean ====
section
/-! SUPPORT. The codecs' shared functions, said once: what `find` gives, when a checksum or an encoder raises SHORT, and how
long the results of a decoder are. -/

namespace Sys2Proof.Machine

/-- `s[a:len(s)]` is the rest of `s` (R14). -/
theorem slice_to_end (s : List Byte) (a : Nat) : slice s a s.length = s.drop a := by simp [slice]

/-- `find` gives NotFound only where no index of the range holds the byte (R14). -/
theorem find_none {s : List Byte} {x : Byte} {lo hi : Nat} (h : find s x lo hi = none) :
    ∀ k, lo ≤ k → k < hi → s[k]? ≠ some x := by
  intro k h1 h2
  unfold find at h
  rw [List.find?_eq_none] at h
  simpa using h k (by rw [List.mem_range'_1]; omega)

/-- `find` gives the least index of the range that holds the byte (R14). -/
theorem find_some {s : List Byte} {x : Byte} {lo hi i : Nat} (h : find s x lo hi = some i) :
    lo ≤ i ∧ i < hi ∧ s[i]? = some x ∧ ∀ k, lo ≤ k → k < i → s[k]? ≠ some x := by
  unfold find at h
  have hm := List.mem_of_find?_eq_some h
  rw [List.mem_range'_1] at hm
  refine ⟨hm.1, by omega, by simpa using List.find?_some h, fun k h1 h2 => ?_⟩
  obtain ⟨-, as, bs, e, hno⟩ := List.find?_eq_some_iff_append.1 h
  have hk : k ∈ List.range' lo (hi - lo) := by rw [List.mem_range'_1]; omega
  have hs : (List.range' lo (hi - lo)).Pairwise (· < ·) := List.pairwise_lt_range'
  rw [e] at hk hs
  rcases List.mem_append.1 hk with hk | hk
  · simpa using hno k hk
  · rcases List.mem_cons.1 hk with hk | hk
    · omega
    · have := (List.pairwise_cons.1 (List.pairwise_append.1 hs).2.1).1 k hk
      omega

theorem lrc_short {s : List Byte} (h : s.length < 2) : lrc s = .error .short := by unfold lrc; rw [if_pos h]

theorem two_le_of_lrc {s : List Byte} {v : Byte} (h : lrc s = .ok v) : 2 ≤ s.length := by
  by_contra h2
  rw [lrc_short (by omega)] at h
  cases h

theorem crc16_short {s : List Byte} (seed : Half) (h : s.length < 2) : crc16 s seed = .error .short := by
  unfold crc16; rw [if_pos h]

theorem crc16_ok {s : List Byte} (seed : Half) (h : 2 ≤ s.length) : crc16 s seed = .ok (s.foldl crcByte seed) := by
  unfold crc16; rw [if_neg (by omega)]

theorem tcpEnc_short {s : List Byte} (t : Byte × Byte) (h : s.length < 2) : tcpEnc t s = .error .short := by
  unfold tcpEnc; simp only [h, if_true]

theorem eight_le_of_tcpValid {f : List Byte} {xs : Option (Byte × Byte)} {xu : Option Byte} (h : tcpValid f xs xu = .ok ()) :
    8 ≤ f.length := by
  by_contra hh
  unfold tcpValid at h
  dsimp only at h
  rw [if_pos (by omega)] at h
  cases h

/-- An RTU decoder's result is at least 2 bytes and no longer than the frame (R223). -/
theorem length_of_rtuDec {f d : List Byte} (h : rtuDec f = .ok d) : 2 ≤ d.length ∧ d.length ≤ f.length := by
  unfold rtuDec at h
  dsimp only at h
  split at h
  · cases h
  · split at h
    · cases h
    · split at h
      · cases h
      · cases h; simp; omega

/-- A TCP decoder's result is at least 2 bytes and no longer than the frame (R267). -/
theorem length_of_tcpDec {f d : List Byte} {t : Byte × Byte} (h : tcpDec f = .ok (t, d)) :
    2 ≤ d.length ∧ d.length ≤ f.length := by
  unfold tcpDec at h
  split at h
  · cases h
  · rename_i hv
    cases h
    have := eight_le_of_tcpValid hv
    rw [slice_to_end]
    simp; omega

/-- An unhexed body is half as long as its text (R185). -/
theorem length_of_unhex {lower : Bool} : ∀ {text d : List Byte}, unhex lower text = some d → text.length = 2 * d.length
  | [], d, h => by simp [unhex] at h; subst h; rfl
  | [_], d, h => by simp [unhex] at h
  | a :: b :: rest, d, h => by
    unfold unhex at h
    split at h
    · rename_i h3
      cases h
      have := length_of_unhex h3
      simp; omega
    · simp at h

/-- An ASCII decoder's result is at least 2 bytes and no longer than the frame (R185). -/
theorem length_of_asciiDec {lower : Bool} {f d : List Byte} (h : asciiDec lower f = .ok d) :
    2 ≤ d.length ∧ d.length ≤ f.length := by
  unfold asciiDec at h
  split at h
  · cases h
  · dsimp only at h
    split at h
    · cases h
    · split at h
      · cases h
      · rename_i hu
        split at h
        · cases h
        · split at h
          · cases h
          · rename_i hl
            split at h
            · cases h
            · cases h
              refine ⟨two_le_of_lrc hl, ?_⟩
              have h1 := length_of_unhex hu
              have h2 : (slice f 1 (stripEnd f)).length ≤ f.length := by unfold slice; simp
              simp; omega

/-- A decoded unit+ADU is at least 2 bytes and no longer than the frame (R303). -/
theorem length_of_decP {lower : Bool} {p : Protocol} {f d : List Byte} {t : Option (Byte × Byte)}
    (h : decP lower p f = .ok (t, d)) : 2 ≤ d.length ∧ d.length ≤ f.length := by
  unfold decP at h
  cases p <;> dsimp only at h <;> split at h <;> cases h
  · exact length_of_asciiDec ‹_›
  · exact length_of_rtuDec ‹_›
  · exact length_of_tcpDec ‹_›

end Sys2Proof.Machine
end

