-- ==== Sys2Proof/Laws/PerInstr.lean ====
section
/-! SUPPORT. Statements for all commands, one lemma per constructor of `Instr`. -/

namespace Sys2Proof.Laws.EncodesRow

/-- The encoding of a command has the command's OP, and no reserved bit of the command is set (R110, R116, R120). -/
def Statement (i : Instr) : Prop := cmdOp (encode i) = i.op ∧ encode i &&& ~~~(usedMask i) = 0#32

theorem lrc : Statement .lrc := by unfold Statement; decide
theorem crc16 : Statement .crc16 := by unfold Statement; decide
theorem crctab : Statement .crctab := by unfold Statement; decide
theorem asciiEnc : Statement .asciiEnc := by unfold Statement; decide
theorem asciiDec : Statement .asciiDec := by unfold Statement; decide
theorem asciiFrame : Statement .asciiFrame := by unfold Statement; decide
theorem rtuEnc : Statement .rtuEnc := by unfold Statement; decide
theorem rtuDec : Statement .rtuDec := by unfold Statement; decide
theorem rtuEst (req : Bool) : Statement (.rtuEst req) := by unfold Statement; decide +revert
theorem rtuFrame (req : Bool) : Statement (.rtuFrame req) := by unfold Statement; decide +revert
theorem tcpEnc : Statement .tcpEnc := by unfold Statement; decide
theorem tcpValid (xseq xunit : Bool) : Statement (.tcpValid xseq xunit) := by unfold Statement; decide +revert
theorem tcpDec : Statement .tcpDec := by unfold Statement; decide
theorem tcpFrame : Statement .tcpFrame := by unfold Statement; decide
theorem txnClear : Statement .txnClear := by unfold Statement; decide
theorem txnSetseq : Statement .txnSetseq := by unfold Statement; decide
theorem txnSetreq (proto : BitVec 2) : Statement (.txnSetreq proto) := by unfold Statement; decide +revert
theorem txnGetreq (proto : BitVec 2) : Statement (.txnGetreq proto) := by unfold Statement; decide +revert
theorem txnSetrsp (proto : BitVec 2) : Statement (.txnSetrsp proto) := by unfold Statement; decide +revert
theorem txnGetrsp (proto : BitVec 2) : Statement (.txnGetrsp proto) := by unfold Statement; decide +revert
theorem txnNorsp (proto : BitVec 2) : Statement (.txnNorsp proto) := by unfold Statement; decide +revert

end Sys2Proof.Laws.EncodesRow
end

