-- ==== Sys2Proof/Laws/Step.lean ====
section
/-! SUPPORT. What the engine's turn and a step can do, said once (20_memory R91, 70_reset_and_hazards R385). -/

namespace Sys2Proof.Machine

/-! ### The combinators, read backwards: what a completed body says -/

theorem withBound_done {b : Body} {s t : State} (h : withBound b s = .done t) : s.inBound = true ∧ b s = .done t := by
  unfold withBound at h
  split at h
  · exact ⟨‹_›, h⟩
  · cases h

theorem withIn_done {b : List Byte → Body} {s t : State} (h : withIn b s = .done t) :
    s.inBound = true ∧ b s.inBytes s.readIn = .done t := withBound_done h

theorem withTxn_done {b : Body} {s t : State} (h : withTxn b s = .done t) : s.cfg.hasTxn = true ∧ b s = .done t := by
  unfold withTxn at h
  split at h
  · exact ⟨‹_›, h⟩
  · cases h

theorem withProto_done {q : BitVec 2} {acc : List TxnState} {b : Protocol → Body} {s t : State}
    (h : withProto q acc b s = .done t) : s.txn.state ∈ acc ∧ ∃ p, protocolOf q = some p ∧ b p s = .done t := by
  unfold withProto at h
  split at h
  · cases h
  · split at h
    · exact ⟨‹_›, _, ‹_›, h⟩
    · cases h

theorem outOrRaise_done {r : Except Reason (List Byte)} {s t : State} (h : outOrRaise r s = .done t) :
    ∃ d, r = .ok d ∧ t = s.setOut d := by
  unfold outOrRaise at h
  split at h
  · cases h
  · cases h; exact ⟨_, rfl, rfl⟩

/-! ### A command -/

/-- A command, said once: it completes with ERR = 0, or it raises, ERR is not 0, and the state is as R355 says. -/
theorem exec_cases {i : Instr} {s t : State} (h : exec i s = .next t) :
    (∃ u, bodyOf i s.clearOutputs = .done u ∧ t = u.post Status.ok ∧ t.status.err = 0) ∨
    (∃ r u, bodyOf i s.clearOutputs = .raise r u ∧ t.status.err ≠ 0 ∧
      t = { s with
        outs := OutputRegs.zero, status := Status.failed r, pending := false
        tblBuilt := u.tblBuilt || Config.freeBool u.draws, draws := u.draws + 1 }) := by
  have e := exec_next h
  rcases perform_cases (bodyOf i) s with ⟨u, hb, e'⟩ | ⟨r, u, hb, e'⟩
  · exact .inl ⟨u, hb, e.trans e', by rw [e, e']; rfl⟩
  · exact .inr ⟨r, u, hb, by rw [e, e']; exact Status.failed_err_ne_zero r, e.trans e'⟩

/-! ### The engine's turn -/

theorem engineTurn_idle {s : State} (h : s.pending = false) : engineTurn s = .next s := by
  unfold engineTurn; rw [h]; rfl

theorem engineTurn_pending {s : State} (h : s.pending = true) : engineTurn s = engineStep s := by
  unfold engineTurn; rw [if_pos h]

theorem engineStep_ok {s : State} {i : Instr} (h : decode s.cfg.hasTxn s.cmd = .ok i) : engineStep s = exec i s := by
  unfold engineStep; rw [h]

theorem engineStep_error {s : State} {e : DecodeError} (h : decode s.cfg.hasTxn s.cmd = .error e) :
    engineStep s = .next (perform (raiseBody (decodeReason e)) s) := by unfold engineStep; rw [h]

/-- The engine's turn, said once. -/
theorem engineTurn_cases {s t : State} (h : engineTurn s = .next t) :
    (s.pending = false ∧ t = s) ∨
    (s.pending = true ∧
      ((∃ e, decode s.cfg.hasTxn s.cmd = .error e ∧ t = perform (raiseBody (decodeReason e)) s) ∨
        ∃ i, decode s.cfg.hasTxn s.cmd = .ok i ∧ exec i s = .next t)) := by
  cases hp : s.pending
  · rw [engineTurn_idle hp] at h; cases h; exact .inl ⟨rfl, rfl⟩
  · rw [engineTurn_pending hp] at h
    cases hd : decode s.cfg.hasTxn s.cmd with
    | error e => rw [engineStep_error hd] at h; cases h; exact .inr ⟨rfl, .inl ⟨e, rfl, rfl⟩⟩
    | ok i => rw [engineStep_ok hd] at h; exact .inr ⟨rfl, .inr ⟨i, rfl, h⟩⟩

/-! ### A step -/

theorem step_nil {s : State} (h : s.host.events = []) : step s = engineTurn s := by unfold step; rw [h]

theorem step_access {s : State} {x : Access} {rest : List Event} (h : s.host.events = .access x :: rest) :
    step s = .next (hostAccess x (s.popEvent rest)) := by unfold step; rw [h]

theorem step_engine {s : State} {rest : List Event} (h : s.host.events = .engine :: rest) :
    step s = engineTurn (s.popEvent rest) := by unfold step; rw [h]

theorem step_reset {s : State} {rest : List Event} (h : s.host.events = .reset :: rest) :
    step s = .next (s.popEvent rest).resetBlock := by unfold step; rw [h]

/-- A step, said once: a host access, a reset, or the engine's turn, on the state with its event taken off the order. -/
theorem step_cases {s t : State} (h : step s = .next t) :
    (∃ x rest, s.host.events = .access x :: rest ∧ t = hostAccess x (s.popEvent rest)) ∨
    (∃ rest, s.host.events = .reset :: rest ∧ t = (s.popEvent rest).resetBlock) ∨
    (∃ rest, (s.host.events = .engine :: rest ∨ (s.host.events = [] ∧ rest = [])) ∧
      engineTurn (s.popEvent rest) = .next t) := by
  match he : s.host.events with
  | [] =>
    rw [step_nil he] at h
    have e : s.popEvent [] = s := by unfold State.popEvent; rw [← he]
    exact .inr (.inr ⟨[], .inr ⟨rfl, rfl⟩, e.symm ▸ h⟩)
  | .access x :: r => rw [step_access he] at h; cases h; exact .inl ⟨x, r, rfl, rfl⟩
  | .engine :: r => rw [step_engine he] at h; exact .inr (.inr ⟨r, .inl rfl, h⟩)
  | .reset :: r => rw [step_reset he] at h; cases h; exact .inr (.inl ⟨r, rfl, rfl⟩)

end Sys2Proof.Machine
end

