-- ==== Sys2Proof/Tests/Slice0.lean ====
section
/-! SUPPORT. The model's own tests. Every expected value is one the spec prints (95_test_vectors, or a rule named beside the
test) or a hand calculation from a rule; and for every obligation with hypotheses, a witness that meets them. -/

namespace Sys2Proof.Tests

open Sys2Proof.Machine
open Sys2Proof.Claims

/-! ### Small states -/

/-- The reset state with `x` written at IN_BUF[ofs..], IN_OFS = ofs and IN_LEN = len x. -/
def load (x : List Byte) (ofs : Nat) : State :=
  { State.reset with
    inBuf := Memory.writeList [] ofs x
    opnd := { OperandRegs.reset with inOfs := BitVec.ofNat 16 ofs, inLen := BitVec.ofNat 16 x.length } }

/-- The state a command leaves. -/
def after (i : Instr) (s : State) : State :=
  match exec i s with
  | .next t => t
  | .fault _ | .refused _ => s

/-- ERR, REASON and RESULT after a command. -/
def posted (i : Instr) (s : State) : BitVec 4 × Byte × Half :=
  ((after i s).status.err, (after i s).status.reason, (after i s).outs.result)

/-- OUT after a command: the OUT_LEN bytes of OUT_BUF that are defined. -/
def out (i : Instr) (s : State) : List (Option Byte) :=
  (List.range (after i s).outs.outLen.toNat).map (after i s).outBuf.read

/-- FLAGS, the FRAME_COUNT descriptors, REM_START and REM_LEN after a command. -/
def framed (i : Instr) (s : State) : Word × List (Option Word) × Half × Half :=
  (flagsWord (after i s).outs.flags, (List.range (after i s).outs.frameCount.toNat).map (after i s).fdesc.read,
    (after i s).outs.remStart, (after i s).outs.remLen)

/-- TXN_INFO and TXN_LEN after a command. -/
def record (i : Instr) (s : State) : Word × Word := (txnInfoWord (after i s).txn, txnLenWord (after i s).txn)

/-- `01 03 00 00 00 0A`, the request of 95_test_vectors. -/
def request : List Byte := [0x01, 0x03, 0x00, 0x00, 0x00, 0x0A]

/-- That request as an RTU frame (S2). -/
def rtuRequest : List Byte := request ++ [0xC5, 0xCD]

/-- That request as an ASCII frame (S9). -/
def asciiRequest : List Byte := [0x3A, 0x30, 0x31, 0x30, 0x33, 0x30, 0x30, 0x30, 0x30, 0x30, 0x30, 0x30, 0x41, 0x46, 0x32, 0x0D, 0x0A]

/-- That request as a TCP frame with the transaction id 12 34 (S9). -/
def tcpRequest : List Byte := [0x12, 0x34, 0x00, 0x00, 0x00, 0x06] ++ request

/-- The TCP response of TA9. -/
def tcpResponse : List Byte := [0x00, 0x07, 0x00, 0x00, 0x00, 0x05, 0x01, 0x03, 0x02, 0x12, 0x34]

/-- The record after TA1 and TA2: RequestSet, from an RTU frame, with the transaction id 00 07. -/
def recordA : TxnRecord :=
  { TxnRecord.reset with
    state := .requestSet, unit := 1, seq := (0x00, 0x07), reqProto := .rtu, reqRaw := rtuRequest
    reqAdu := [0x03, 0x00, 0x00, 0x00, 0x0A] }

/-- The record after TA9: ResponseSet, the response from a TCP frame. -/
def recordR : TxnRecord :=
  { recordA with state := .responseSet, rspProto := .tcp, rspRaw := tcpResponse, rspAdu := [0x03, 0x02, 0x12, 0x34] }

/-- `s` with the record `t`. -/
def withRecord (t : TxnRecord) (s : State) : State := { s with txn := t }

/-- A block without the TXN unit. -/
def noTxn : State := { State.reset with cfg := { Config.default with hasTxn := false } }

/-- `s` with the events `es` to come. -/
def withEvents (es : List Event) (s : State) : State := { s with host := { s.host with events := es } }

/-- `s` with the event `e` next. -/
def withEvent (e : Event) (s : State) : State := withEvents [e] s

/-! ### Well-formedness -/

theorem test_wf_txn_absent : Instr.wf false .txnClear = false ∧ Instr.wf false .txnSetseq = false ∧
    Instr.wf false (.txnSetreq 1) = false ∧ Instr.wf false (.txnGetreq 2) = false ∧
    Instr.wf false (.txnSetrsp 0) = false ∧ Instr.wf false (.txnGetrsp 3) = false ∧
    Instr.wf false (.txnNorsp 2) = false := by decide

theorem test_wf_others : Instr.wf false .lrc = true ∧ Instr.wf false .tcpFrame = true ∧
    Instr.wf true (.txnSetreq 3) = true := by decide

/-! ### Decoding: every command's word, written out from R110 and R112; and the words of 95_test_vectors section 8 -/

theorem test_decode_lrc : decode true 0b0000_0000_0000_0000_0000_0000_0000_0001 = .ok .lrc := by decide
theorem test_decode_crc16 : decode true 0b0000_0000_0000_0000_0000_0000_0000_0010 = .ok .crc16 := by decide
theorem test_decode_crctab : decode true 0b0000_0000_0000_0000_0000_0000_0000_0011 = .ok .crctab := by decide
theorem test_decode_ascii_enc : decode true 0b0000_0000_0000_0000_0000_0000_0001_0000 = .ok .asciiEnc := by decide
theorem test_decode_ascii_dec : decode true 0b0000_0000_0000_0000_0000_0000_0001_0001 = .ok .asciiDec := by decide
theorem test_decode_ascii_frame : decode true 0b0000_0000_0000_0000_0000_0000_0001_0010 = .ok .asciiFrame := by decide
theorem test_decode_rtu_enc : decode true 0b0000_0000_0000_0000_0000_0000_0010_0000 = .ok .rtuEnc := by decide
theorem test_decode_rtu_dec : decode true 0b0000_0000_0000_0000_0000_0000_0010_0001 = .ok .rtuDec := by decide
theorem test_decode_rtu_est_rsp : decode true 0b0000_0000_0000_0000_0000_0000_0010_0010 = .ok (.rtuEst false) := by decide
theorem test_decode_rtu_est_req : decode true 0b0000_0000_0000_0000_0000_0100_0010_0010 = .ok (.rtuEst true) := by decide
theorem test_decode_rtu_frame_rsp : decode true 0b0000_0000_0000_0000_0000_0000_0010_0011 = .ok (.rtuFrame false) := by decide
theorem test_decode_rtu_frame_req : decode true 0b0000_0000_0000_0000_0000_0100_0010_0011 = .ok (.rtuFrame true) := by decide
theorem test_decode_tcp_enc : decode true 0b0000_0000_0000_0000_0000_0000_0011_0000 = .ok .tcpEnc := by decide
theorem test_decode_tcp_valid_seq : decode true 0b0000_0000_0000_0000_0000_1000_0011_0001 = .ok (.tcpValid true false) := by decide
theorem test_decode_tcp_valid_unit : decode true 0b0000_0000_0000_0000_0001_0000_0011_0001 = .ok (.tcpValid false true) := by decide
theorem test_decode_tcp_dec : decode true 0b0000_0000_0000_0000_0000_0000_0011_0010 = .ok .tcpDec := by decide
theorem test_decode_tcp_frame : decode true 0b0000_0000_0000_0000_0000_0000_0011_0011 = .ok .tcpFrame := by decide
theorem test_decode_txn_clear : decode true 0b0000_0000_0000_0000_0000_0000_0100_0000 = .ok .txnClear := by decide
theorem test_decode_txn_setseq : decode true 0b0000_0000_0000_0000_0000_0000_0100_0001 = .ok .txnSetseq := by decide
theorem test_decode_txn_setreq_rtu : decode true 0b0000_0000_0000_0000_0000_0001_0100_0010 = .ok (.txnSetreq 1) := by decide
theorem test_decode_txn_getreq_tcp : decode true 0b0000_0000_0000_0000_0000_0010_0100_0011 = .ok (.txnGetreq 2) := by decide
theorem test_decode_txn_setrsp_tcp : decode true 0b0000_0000_0000_0000_0000_0010_0100_0100 = .ok (.txnSetrsp 2) := by decide
theorem test_decode_txn_getrsp_ascii : decode true 0b0000_0000_0000_0000_0000_0000_0100_0101 = .ok (.txnGetrsp 0) := by decide
theorem test_decode_txn_norsp_proto3 : decode true 0b0000_0000_0000_0000_0000_0011_0100_0110 = .ok (.txnNorsp 3) := by decide

theorem test_decode_opcode : decode true 0x00000000 = .error .opcode ∧ decode true 0x00000004 = .error .opcode ∧
    decode true 0x00000147 = .error .opcode ∧ decode true 0x00002047 = .error .opcode ∧
    decode false 0x00000040 = .error .opcode ∧ decode false 0x00002046 = .error .opcode := by decide

theorem test_decode_rsvd : decode true 0x00002001 = .error .rsvd ∧ decode true 0x00000101 = .error .rsvd ∧
    decode true 0x00000401 = .error .rsvd ∧ decode true 0x00000403 = .error .rsvd ∧
    decode true 0x00000822 = .error .rsvd ∧ decode true 0x00001022 = .error .rsvd ∧
    decode true 0x00000323 = .error .rsvd ∧ decode true 0x80000046 = .error .rsvd := by decide

/-! ### The codes of R351 and R352 -/

theorem test_reason_codes :
    [Reason.short, .start, .odd, .hex, .protoId, .lenMismatch, .lenBig, .seqMismatch, .unitMismatch, .aduMax, .inlen].map
      (fun r => (r.kind.code, r.code)) =
    [(1, 0x01), (1, 0x02), (1, 0x03), (1, 0x04), (1, 0x05), (1, 0x06), (1, 0x07), (1, 0x08), (1, 0x09), (1, 0x0A),
      (1, 0x0B)] ∧
    [Reason.lrc, .crc, .protoTag, .state, .opcode, .rsvd].map (fun r => (r.kind.code, r.code)) =
    [(2, 0x10), (2, 0x11), (3, 0x20), (4, 0x30), (5, 0x40), (5, 0x41)] := by decide

/-! ### One command each (the vector is named) -/

/-- S1. -/
theorem test_lrc : posted .lrc (load request 0) = (0, 0x00, 0xF2) := by decide

/-- V2: the sum 0x100 masks to 0. -/
theorem test_lrc_truncates : posted .lrc (load [0x80, 0x80] 0) = (0, 0x00, 0x00) := by decide

/-- S2. -/
theorem test_crc16 : posted .crc16 (load request 0) = (0, 0x00, 0xCDC5) ∧ (after .crc16 (load request 0)).tblBuilt = true := by decide

/-- V2: SEED = 0. -/
theorem test_crc16_seed : (after .crc16 { load request 0 with opnd := { (load request 0).opnd with seed := 0 } }).outs.result = 0xD6C5 := by decide

/-- V1: PARAM = 0x100, and a window outside IN_BUF does not matter. -/
theorem test_crctab : (after .crctab { State.reset with opnd := { OperandRegs.reset with param := 0x0100, inOfs := 1000, inLen := 100 } }).outs.result = 0xC0C1 := by decide

/-- V1: T[0x80]. -/
theorem test_crctab_poly : (after .crctab { State.reset with opnd := { OperandRegs.reset with param := 0x8000 } }).outs.result = 0xA001 := by decide

/-- 4.1. -/
theorem test_ascii_enc : out .asciiEnc (load request 0) = asciiRequest.map some := by decide

/-- 4.1. -/
theorem test_ascii_enc_markers : out .asciiEnc (load [0x3A, 0x0D, 0x0A] 0) = [some 0x3A, some 0x33, some 0x41, some 0x30, some 0x44, some 0x30, some 0x41, some 0x41, some 0x46, some 0x0D, some 0x0A] := by decide

/-- 4.2. -/
theorem test_ascii_dec : out .asciiDec (load asciiRequest 0) = request.map some ∧ posted .asciiDec (load [0x3A, 0x30, 0x31, 0x30, 0x33, 0x46, 0x43] 0) = (0, 0x00, 0) := by decide

/-- 4.2: one CR LF pair is stripped; a wrong LRC. -/
theorem test_ascii_dec_odd : posted .asciiDec (load [0x3A, 0x30, 0x31, 0x30, 0x33, 0x46, 0x43, 0x0D, 0x0D, 0x0A] 0) = (1, 0x03, 0) ∧ posted .asciiDec (load [0x3A, 0x30, 0x31, 0x30, 0x33, 0x30, 0x30, 0x30, 0x30, 0x30, 0x30, 0x30, 0x41, 0x46, 0x33, 0x0D, 0x0A] 0) = (2, 0x10, 0) := by decide

/-- S4. -/
theorem test_ascii_frame : framed .asciiFrame (load (asciiRequest ++ asciiRequest.take 15) 0) = (0x01, [some 0x00110000], 17, 15) := by decide

/-- 4.3: START is absolute. -/
theorem test_ascii_frame_absolute : framed .asciiFrame (load [0x47, 0x47, 0x3A, 0x30, 0x31, 0x30, 0x33, 0x46, 0x43, 0x0D, 0x0A] 100) = (0x04, [some 0x00090066], 0, 0) := by decide

/-- S2. -/
theorem test_rtu_enc : out .rtuEnc (load request 0) = rtuRequest.map some := by decide

/-- 5.1. -/
theorem test_rtu_enc_short : posted .rtuEnc (load [0x01] 0) = (1, 0x01, 0) := by decide

/-- 5.1. -/
theorem test_rtu_dec : out .rtuDec (load rtuRequest 0) = request.map some := by decide

/-- 5.1: the CRC bytes in the wrong order. -/
theorem test_rtu_dec_order : posted .rtuDec (load (request ++ [0xCD, 0xC5]) 0) = (2, 0x11, 0) ∧
    (after .rtuDec (load (request ++ [0xCD, 0xC5]) 0)).tblBuilt = true := by decide

/-- S5. -/
theorem test_rtu_est : (after (.rtuEst true) (load [0x01, 0x10, 0x00, 0x01, 0x00, 0x01, 0x02] 0)).outs.result = 9 ∧
    (after (.rtuEst true) (load [0x01, 0x10, 0x00, 0x01, 0x00, 0x01] 0)).outs.flags.est = 1 := by decide

/-- 5.2: the exception class is a response class only. -/
theorem test_rtu_est_rsp : (after (.rtuEst false) (load [0x01, 0x83] 0)).outs.result = 3 ∧
    (after (.rtuEst true) (load [0x01, 0x83] 0)).outs.flags.est = 2 := by decide

/-- 5.3. -/
theorem test_rtu_frame : framed (.rtuFrame true) (load (rtuRequest ++ [0x01, 0x03, 0x00]) 0) = (0x01, [some 0x00080000], 8, 3) := by decide

/-- 5.3. -/
theorem test_rtu_frame_rsp : framed (.rtuFrame false) (load [0x01, 0x03, 0x02, 0x12, 0x34, 0xB5, 0x33, 0x01, 0x83, 0x01, 0x31, 0xF0] 0) =
    (0, [some 0x00070000, some 0x00050007], 0, 0) := by decide

/-- Section 6. -/
theorem test_tcp_enc : out .tcpEnc { load request 0 with opnd := { (load request 0).opnd with seq := 0x1234 } } = tcpRequest.map some := by decide

/-- Section 6. -/
theorem test_tcp_enc_short : posted .tcpEnc (load [0x01] 0) = (1, 0x01, 0) := by decide

/-- Section 6. -/
theorem test_tcp_valid : posted (.tcpValid true true) { load tcpRequest 0 with opnd := { (load tcpRequest 0).opnd with seq := 0x1234, param := 0x01 } } = (0, 0x00, 1) := by decide

/-- Section 6. -/
theorem test_tcp_valid_seq : posted (.tcpValid true false) { load tcpRequest 0 with opnd := { (load tcpRequest 0).opnd with seq := 0x1235 } } = (1, 0x08, 0) := by decide

/-- Section 6. -/
theorem test_tcp_dec : out .tcpDec (load tcpRequest 0) = request.map some ∧ posted .tcpDec (load tcpRequest 0) = (0, 0x00, 0x1234) := by decide

/-- S6, by R267. -/
theorem test_tcp_dec_proto : posted .tcpDec (load ([0x12, 0x34, 0x00, 0x01, 0x00, 0x06] ++ request) 0) = (1, 0x05, 0) := by decide

/-- Section 6: a bad header after one frame. -/
theorem test_tcp_frame : framed .tcpFrame (load ([0x00, 0x01, 0x00, 0x00, 0x00, 0x06] ++ request ++ [0x00, 0x02, 0x00, 0x01, 0x00, 0x06]) 0) = (0x04, [some 0x000C0000], 0, 0) := by decide

/-- Section 6: L = 257 has no upper check. -/
theorem test_tcp_frame_big : framed .tcpFrame (load [0x00, 0x01, 0x00, 0x00, 0x01, 0x01, 0x01, 0x03] 0) = (0x01, [], 0, 8) := by decide

/-- TA15. -/
theorem test_txn_clear : record .txnClear (withRecord recordR State.reset) = (0x00000100, 0x00000000) := by decide

/-- R117: a TXN opcode of a block without the unit. -/
theorem test_txn_clear_absent : posted .txnClear noTxn = (5, 0x40, 0) := by decide

/-- TD2, on the record of TA2: padded to AB 00. -/
theorem test_txn_setseq : record .txnSetseq (withRecord recordA (load [0xAB] 0)) = (0xAB000105, 0x00000005) := by decide

/-- TD3. -/
theorem test_txn_setseq_long : (after .txnSetseq (load [0x12, 0x34, 0x56] 0)).txn.seq = (0x12, 0x34) := by decide

/-- TA1. -/
theorem test_txn_setreq : record (.txnSetreq 1) (load rtuRequest 0) = (0x00000105, 0x00000005) ∧
    posted (.txnSetreq 1) (load rtuRequest 0) = (0, 0x00, 1) ∧ (after (.txnSetreq 1) (load rtuRequest 0)).txn.reqRaw = rtuRequest := by decide

/-- TC1 and the note after TC7: BadProtocol comes before BadState. -/
theorem test_txn_setreq_proto3 : posted (.txnSetreq 3) (withRecord recordR (load [0x01, 0x03] 0)) = (3, 0x20, 0) := by decide

/-- TA3. -/
theorem test_txn_getreq : out (.txnGetreq 2) (withRecord recordA State.reset) = ([0x00, 0x07, 0x00, 0x00, 0x00, 0x06] ++ request).map some := by decide

/-- TC3. -/
theorem test_txn_getreq_empty : posted (.txnGetreq 0) State.reset = (4, 0x30, 0) := by decide

/-- TA9. -/
theorem test_txn_setrsp : record (.txnSetrsp 2) (withRecord recordA (load tcpResponse 0)) = (0x00070126, 0x00040005) := by decide

/-- TA6. -/
theorem test_txn_setrsp_seq : posted (.txnSetrsp 2) (withRecord recordA (load (0x00 :: 0x08 :: tcpResponse.drop 2) 0)) = (1, 0x08, 0) := by decide

/-- TA10. -/
theorem test_txn_getrsp : out (.txnGetrsp 1) (withRecord recordR State.reset) = [some 0x01, some 0x03, some 0x02, some 0x12, some 0x34, some 0xB5, some 0x33] := by decide

/-- TA8. -/
theorem test_txn_getrsp_state : posted (.txnGetrsp 2) (withRecord recordA State.reset) = (4, 0x30, 0) := by decide

/-- S8. -/
theorem test_txn_norsp : out (.txnNorsp 2) (withRecord { recordA with seq := (0x00, 0x00) } State.reset) = [some 0x00, some 0x00, some 0x00, some 0x00, some 0x00, some 0x03, some 0x01, some 0x83, some 0x0B] := by decide

/-- TB3: NONE = 1, and TimedOut. -/
theorem test_txn_norsp_serial : framed (.txnNorsp 1) (withRecord recordA State.reset) = (0x02, [], 0, 0) ∧
    (after (.txnNorsp 1) (withRecord recordA State.reset)).txn.state = .timedOut := by decide

/-! ### The host bus, reset and the step -/

/-- 95_test_vectors section 9. -/
theorem test_caps : capsWord Config.default = 0x00170400 := by decide

/-- R380. -/
theorem test_reset_txn_info : txnInfoWord State.reset.txn = 0x00000100 ∧ statusWord State.reset = 0 := by decide

/-- R34: bits [31:16] are ignored; R35: SEED resets to 0xFFFF. -/
theorem test_operand_write : (hostAccess (.writeWord 0x00008 0xABCD0002) State.reset).opnd.inLen = 2 ∧
    (hostAccess (.readWord 0x0000C) State.reset).host.replies = [.word 0x0000FFFF] := by decide

/-- R386: an operand write while BUSY = 1; a read-only register faults either way. -/
theorem test_hazard : (hostAccess (.writeWord 0x00008 1) (State.reset.issue 1)).host.replies = [.fault (.hazardFault 0x00008 .write .word)] ∧
    (hostAccess (.writeWord 0x00004 1) (State.reset.issue 1)).host.replies = [.fault (.accessFault 0x00004 .write .word)] := by decide

/-- R84, R85: a misaligned address and the first address above each region, BUF_CAP = 1024. -/
theorem test_holes : (hostAccess (.readWord 0x00002) State.reset).host.replies = [.fault (.accessFault 0x00002 .read .word)] ∧
    (hostAccess (.readWord 0x00040) State.reset).host.replies = [.fault (.accessFault 0x00040 .read .word)] ∧
    (hostAccess (.readByte 0x10400) State.reset).host.replies = [.fault (.accessFault 0x10400 .read .byte)] ∧
    (hostAccess (.readByte 0x20808) State.reset).host.replies = [.fault (.accessFault 0x20808 .read .byte)] ∧
    (hostAccess (.readWord 0x41000) State.reset).host.replies = [.fault (.accessFault 0x41000 .read .word)] := by decide

/-- Section 8: 1000 + 25 > 1024. -/
theorem test_inlen : posted .lrc { State.reset with opnd := { OperandRegs.reset with inOfs := 1000, inLen := 25 } } = (1, 0x0B, 0) := by decide

/-- V1 through a step: CRCTAB with PARAM = 0. -/
theorem test_fetch : ∃ t, step (State.reset.withFetchWord 32 0x3) = .next t ∧ t.outs.result = 0 ∧ t.tblBuilt = true ∧ t.pending = false := ⟨_, rfl, by decide, by decide, by decide⟩

/-- R383: with no access left and nothing pending the run is over, whatever reset or engine's turn is still listed. -/
theorem test_run_over_before_reset : (withEvent .reset (load request 0)).EndsAfter 0 (withEvent .reset (load request 0)) :=
  ⟨rfl, by unfold State.RunOver; decide, fun m _ h _ => absurd h (Nat.not_lt_zero m)⟩

/-- R383: a pending CRCTAB, the engine's step and then a reset: the run ends after the step, before the reset. -/
theorem test_run_over_after_engine : ∃ t, (withEvents [.engine, .reset] (State.reset.issue 0x3)).EndsAfter 1 t ∧
    t.tblBuilt = true ∧ t.host.events = [.reset] := by
  refine ⟨_, ⟨rfl, by unfold State.RunOver; decide, fun m u h hu hover => ?_⟩, by decide, by decide⟩
  interval_cases m
  cases hu
  exact absurd hover.2 (by decide)

/-! ### Witnesses: for every obligation with hypotheses, a state and operands that meet them, clause by clause -/

/-- The largest window that fits, 1000 + 24 = BUF_CAP, with `x` of 24 bytes or fewer at its end. -/
def atEdge (x : List Byte) : State := load x (1024 - x.length)

/-- The smallest window that does not fit, 1000 + 25 = BUF_CAP + 1 (95_test_vectors section 8). -/
def outside : State := { State.reset with opnd := { OperandRegs.reset with inOfs := 1000, inLen := 25 } }

theorem witness_outside : ¬InWindow outside ∧ ¬InWindow (withRecord recordA outside) := by unfold InWindow; decide

theorem witness_DecodeAndEncodeAgree : Instr.wf true (.txnNorsp 3) = true ∧ encode (.txnNorsp 3) = 0x00000346 ∧
    decode true 0x00000346 = .ok (.txnNorsp 3) := by decide

theorem witness_DecodeFollowsR116 : ¬KnownOp true 0x47 ∧ ¬KnownOp true 0x00 ∧ ¬KnownOp false 0x40 ∧ ¬KnownOp false 0x46 ∧
    KnownOp true 0x46 ∧ KnownOp false 0x33 ∧ (0x00002001#32 &&& ~~~usedBits 0x01 ≠ 0) ∧
    decode true 0x00001831 = .ok (.tcpValid true true) := by unfold KnownOp; decide

theorem witness_opcodeRows : (0x00000042, 0xFFFFFCFF) ∈ opcodeRows ∧ 0x00000342#32 &&& 0xFFFFFCFF = 0x00000042 := by decide

theorem witness_IllegalWordPostsBadCommand :
    (State.reset.issue 0x00000147).pending = true ∧ (State.reset.issue 0x00000147).host.events = [] ∧
    ¬KnownOp (State.reset.issue 0x00000147).cfg.hasTxn ((State.reset.issue 0x00000147).cmd.extractLsb' 0 8) ∧
    (State.reset.withFetchWord 32 0x00002002).pending = true ∧
    (State.reset.withFetchWord 32 0x00002002).host.events = [.engine] ∧
    KnownOp (State.reset.withFetchWord 32 0x00002002).cfg.hasTxn
      ((State.reset.withFetchWord 32 0x00002002).cmd.extractLsb' 0 8) ∧
    (State.reset.withFetchWord 32 0x00002002).cmd &&&
      ~~~usedBits ((State.reset.withFetchWord 32 0x00002002).cmd.extractLsb' 0 8) ≠ 0 := by
  unfold KnownOp; decide

theorem witness_StepRunsPendingCommand :
    (State.reset.issue 0x00000001).pending = true ∧ decode true (State.reset.issue 0x00000001).cmd = .ok .lrc ∧
    (State.reset.issue 0x00000001).host.events = [] ∧
    (State.reset.withFetchWord 32 0x00000001).pending = true ∧
    (State.reset.withFetchWord 32 0x00000001).host.events = [.engine] ∧
    (withEvent (.access (.readWord 0x00004)) State.reset).host.events = [.access (.readWord 0x00004)] ∧
    (withEvent .reset State.reset).host.events = [.reset] ∧
    (withEvent .engine State.reset).pending = false ∧ State.reset.host.events = [] := by decide

theorem witness_FailedCommandWritesOnlyStatus :
    (∃ t, exec .lrc { State.reset with tblBuilt := true } = .next t ∧ t.status.err ≠ 0) ∧
    ∃ t, exec .rtuDec (load (request ++ [0xCD, 0xC5]) 0) = .next t ∧ t.status.err ≠ 0 ∧ t.status.reason = 0x11 :=
  ⟨⟨_, rfl, by decide⟩, _, rfl, by decide, by decide⟩

theorem witness_TableFlagAndHostFaultsAreKept :
    ∃ s t, step s = .next t ∧ s.tblBuilt = true ∧ s.host.events.head? ≠ some .reset ∧
      Fault.accessFault 0x00002 .read .word ∈ s.hostFaults :=
  ⟨{ State.reset with tblBuilt := true, host := { events := [], replies := [.fault (.accessFault 0x00002 .read .word)] } }, _,
    rfl, rfl, by decide, by decide⟩

theorem witness_InputBoundCheck_checked :
    readsIn .lrc = true ∧ Instr.wf outside.cfg.hasTxn .lrc = true ∧ readsIn (.txnSetreq 3) = true ∧
    Instr.wf outside.cfg.hasTxn (.txnSetreq 3) = true := by decide

theorem witness_InputBoundCheck_free :
    readsIn (.txnNorsp 2) = false ∧ Instr.wf outside.cfg.hasTxn (.txnNorsp 2) = true ∧
    ∃ t, exec (.txnNorsp 2) (withRecord recordA outside) = .next t := ⟨rfl, rfl, _, rfl⟩

theorem witness_ErrorPrecedence_absent : Instr.wf noTxn.cfg.hasTxn (.txnSetreq 3) = false := by decide

theorem witness_ErrorPrecedence_proto : Instr.wf (atEdge [0x01, 0x03]).cfg.hasTxn (.txnSetreq 3) = true ∧
    InWindow (atEdge [0x01, 0x03]) ∧ protoOf (.txnSetreq 3) = some 3 := by unfold InWindow; decide

theorem witness_ErrorPrecedence_state : Instr.wf State.reset.cfg.hasTxn (.txnGetreq 2) = true ∧
    readsIn (.txnGetreq 2) = false ∧ protoOf (.txnGetreq 2) ≠ some 3 ∧
    State.reset.txn.state ∉ acceptedIn (.txnGetreq 2) := by decide

theorem witness_RecordStateTable :
    (∃ t, exec (.txnSetreq 1) (load rtuRequest 0) = .next t ∧ t.status.err = 0) ∧
    (∃ t, exec (.txnGetreq 2) State.reset = .next t ∧ t.status.err ≠ 0) :=
  ⟨⟨_, rfl, by decide⟩, ⟨_, rfl, by decide⟩⟩

theorem witness_RecordIsTheTxnUnitsOwn :
    (∃ t, step ((load rtuRequest 0).withFetchWord 32 0x00000142) = .next t ∧ t.txn ≠ (load rtuRequest 0).txn) ∧
    (∃ t, step (withEvent .reset (withRecord recordA State.reset)) = .next t ∧ t.txn ≠ recordA) ∧
    Instr.isTxn .lrc = false ∧ ∃ t, exec .lrc State.reset = .next t :=
  ⟨⟨_, rfl, by decide⟩, ⟨_, rfl, by decide⟩, rfl, _, rfl⟩

theorem witness_TableFlagChangesNoResult : ∃ t, exec .crc16 (load request 0) = .next t := ⟨_, rfl⟩

theorem witness_StepKeepsInvariant : State.reset.Inv ∧ ∃ t, step State.reset = .next t := by
  refine ⟨⟨by decide, ⟨by decide, by decide, by decide, by decide, by decide, by decide⟩,
    ⟨by decide, fun i h => absurd h (Nat.not_lt_zero i), by decide, fun i h => absurd h (Nat.not_lt_zero i), ?_, by decide⟩,
    .inl ⟨rfl, rfl⟩, ?_⟩, _, rfl⟩
  · exact ⟨rfl, rfl⟩
  · exact ⟨⟨rfl, rfl, rfl, rfl⟩, rfl, rfl, rfl⟩

theorem witness_HostReadsHaveNoSideEffect : Config.Valid State.reset.cfg ∧
    dirOf (.readByte 0x20807) = .read ∧ Admitted State.reset.cfg (.readByte 0x20807) ∧ widthOf (.readByte 0x20807) = .byte ∧
    dirOf (.readWord 0x40FFC) = .read ∧ Admitted State.reset.cfg (.readWord 0x40FFC) ∧ widthOf (.readWord 0x40FFC) = .word ∧
    Admitted State.reset.cfg (.readWord 0x0003C) ∧ Admitted State.reset.cfg (.readByte 0x103FF) := by
  unfold Admitted; decide

theorem witness_UnadmittedAccessFaults : ¬Admitted State.reset.cfg (.readByte 0x10400) ∧
    ¬Admitted State.reset.cfg (.readByte 0x0FFFF) ∧ ¬Admitted State.reset.cfg (.readByte 0x20808) ∧
    ¬Admitted State.reset.cfg (.readWord 0x00040) ∧ ¬Admitted State.reset.cfg (.readWord 0x41000) ∧
    ¬Admitted State.reset.cfg (.readWord 0x00002) ∧ ¬Admitted State.reset.cfg (.writeByte 0x20000 0) ∧
    ¬Admitted State.reset.cfg (.writeWord 0x00004 0) ∧ ¬Admitted noTxn.cfg (.readWord 0x00030) := by unfold Admitted; decide

theorem witness_PendingOperandWriteIsHazard : (State.reset.issue 1).pending = true ∧
    dirOf (.writeWord 0x00000 1) = .write ∧ Admitted (State.reset.issue 1).cfg (.writeWord 0x00000 1) ∧
    Admitted (State.reset.issue 1).cfg (.writeWord 0x0003C 1) ∧ Admitted (State.reset.issue 1).cfg (.writeByte 0x103FF 1) ∧
    ¬Admitted (State.reset.issue 1).cfg (.writeWord 0x00038 1) ∧
    Config.Valid (State.reset.issue 1).cfg := by unfold Admitted; decide

theorem witness_CmdWriteIssues : State.reset.pending = false := rfl

theorem witness_OperandRegisterAccess : (load request 0).pending = false := rfl

theorem witness_CapsShowsParameters : Config.Valid State.reset.cfg ∧ Config.Valid { Config.default with bufCap := 520 } ∧
    Config.Valid { Config.default with bufCap := 32752 } := by decide

theorem witness_RecordReads : (withRecord recordR State.reset).cfg.hasTxn = true ∧
    (withRecord recordR State.reset).txn.reqAdu.length < 2 ^ 16 ∧
    (withRecord recordR State.reset).txn.rspAdu.length < 2 ^ 16 := by decide

theorem witness_InputBufferAccess : Config.Valid (atEdge request).cfg ∧ 1023 < (atEdge request).cfg.bufCap ∧
    (atEdge request).pending = false ∧ (atEdge request).inBuf.read 1023 = some 0x0A ∧
    HoldsInput (atEdge request) request := by
  refine ⟨by decide, by decide, by decide, by decide, by decide, ?_⟩
  intro k h
  have h' : k < 6 := h
  interval_cases k <;> rfl

theorem witness_OutputBufferAccess : 2055 < 2 * (after .rtuEnc (load request 0)).cfg.bufCap + 8 ∧
    7 < (after .rtuEnc (load request 0)).outs.outLen.toNat ∧
    (after .rtuEnc (load request 0)).outBuf.read 7 = some 0xCD ∧
    (after .rtuEnc (load request 0)).outs.outLen.toNat ≤ 8 ∧ Config.Valid (after .rtuEnc (load request 0)).cfg := by decide

theorem witness_DescriptorAccess : 0 < (after (.rtuFrame true) (load rtuRequest 0)).outs.frameCount.toNat ∧
    (after (.rtuFrame true) (load rtuRequest 0)).fdesc.read 0 = some 0x00080000 ∧
    (after (.rtuFrame true) (load rtuRequest 0)).outs.frameCount.toNat ≤ 1 ∧
    4 * 1023 < 4 * (after (.rtuFrame true) (load rtuRequest 0)).cfg.bufCap ∧ 4095 % 4 ≠ 0 ∧
    Config.Valid (after (.rtuFrame true) (load rtuRequest 0)).cfg := by decide

theorem witness_ResetEventSetsTheTable : (withEvent .reset (State.reset.issue 1)).host.events = [.reset] := rfl

/-- The windows of the length clauses: 0, 1 and 2 bytes, and 2 bytes that end at BUF_CAP. -/
theorem witness_lengths : InWindow (load [] 0) ∧ (load [] 0).inBytes.length < 2 ∧ InWindow (load [0x01] 0) ∧
    (load [0x01] 0).inBytes.length < 2 ∧ InWindow (atEdge [0x01, 0x03]) ∧ 2 ≤ (atEdge [0x01, 0x03]).inBytes.length := by
  unfold InWindow; decide

theorem witness_LrcCancelsByteSum : 2 ≤ ([0x01, 0x03] : List Byte).length := by decide

theorem witness_CrcZeroResidue : 2 ≤ request.length ∧ crc16 request 0xFFFF = .ok 0xCDC5 := by decide

theorem witness_round_trips : 2 ≤ ([0xFF, 0xFF] : List Byte).length ∧
    2 ≤ (List.replicate 256 (0x03 : Byte)).length ∧ (List.replicate 256 (0x03 : Byte)).length ≤ 256 ∧
    256 < (List.replicate 257 (0x03 : Byte)).length ∧ (List.replicate 257 (0x03 : Byte)).length ≤ 32752 := by
  rw [List.length_replicate, List.length_replicate]
  decide

/-- `01 03 FC` in hex, the body of `:0103FC\r\n` (4.2). -/
def bodyText : List Byte := [0x30, 0x31, 0x30, 0x33, 0x46, 0x43]

theorem witness_AsciiDecodeChecks_start : (bodyText.head? ≠ some 0x3A) ∧ ((0x3A :: bodyText).head? = some 0x3A) := by decide

theorem witness_AsciiDecodeChecks_body : BodyOf ([0x3A] ++ bodyText ++ [0x0D, 0x0A]) bodyText ∧
    BodyOf ([0x3A] ++ bodyText ++ [0x0A]) bodyText ∧ BodyOf ([0x3A] ++ bodyText) bodyText := by
  refine ⟨.inl rfl, .inr (.inl ⟨0x0A, .inr rfl, rfl, by decide⟩), .inr (.inr ⟨rfl, by decide, by decide⟩)⟩

theorem witness_AsciiDecodeChecks_odd : BodyOf ([0x3A] ++ (bodyText ++ [0x0D]) ++ [0x0D, 0x0A]) (bodyText ++ [0x0D]) ∧
    (bodyText ++ [0x0D]).length % 2 = 1 := ⟨.inl rfl, by decide⟩

theorem witness_AsciiDecodeChecks_hex : BodyOf [0x3A, 0x30, 0x47] [0x30, 0x47] ∧ ([0x30, 0x47] : List Byte).length % 2 = 0 ∧
    ¬∃ d, HexOf true [0x30, 0x47] d := by
  refine ⟨.inr (.inr ⟨rfl, by decide, by decide⟩), by decide, ?_⟩
  rintro ⟨d, hl, h⟩
  have hd : 0 < d.length := by simp at hl; omega
  obtain ⟨hi, lo, c1, c2, -, e2, -, h2, -⟩ := h 0 hd
  have hc : c2 = 0x47 := by simpa using e2.symm
  subst hc
  rcases h2 with h2 | ⟨-, -, h2⟩
  · exact absurd (List.mem_of_getElem? h2) (by decide)
  · exact absurd (List.mem_of_getElem? h2) (by decide)

theorem witness_AsciiDecodeChecks_digits : HexOf false bodyText ([0x01, 0x03] ++ [0xFC]) ∧
    2 ≤ ([0x01, 0x03] : List Byte).length ∧ HexOf true [0x30, 0x61] [0x0A] ∧ ([0x0A] : List Byte).length < 3 := by
  refine ⟨⟨by decide, fun k h => ?_⟩, by decide, ⟨by decide, fun k h => ?_⟩, by decide⟩
  · have h' : k < 3 := h
    interval_cases k
    · exact ⟨0, 1, _, _, rfl, rfl, .inl rfl, .inl rfl, rfl⟩
    · exact ⟨0, 3, _, _, rfl, rfl, .inl rfl, .inl rfl, rfl⟩
    · exact ⟨15, 12, _, _, rfl, rfl, .inl rfl, .inl rfl, rfl⟩
  · have h' : k < 1 := h
    interval_cases k
    exact ⟨0, 10, _, _, rfl, rfl, .inl rfl, .inr ⟨rfl, by decide, rfl⟩, rfl⟩

theorem witness_AsciiDecResult : InWindow (load asciiRequest 0) ∧
    asciiDec true (load asciiRequest 0).inBytes = .ok request ∧
    InWindow (load bodyText 0) ∧ asciiDec true (load bodyText 0).inBytes = .error .start ∧
    InWindow (load [0x3A, 0x30] 0) ∧ asciiDec true (load [0x3A, 0x30] 0).inBytes = .error .odd ∧
    InWindow (load [0x3A, 0x30, 0x47] 0) ∧ asciiDec true (load [0x3A, 0x30, 0x47] 0).inBytes = .error .hex ∧
    InWindow (load [0x3A, 0x0D, 0x0A] 0) ∧ asciiDec true (load [0x3A, 0x0D, 0x0A] 0).inBytes = .error .short ∧
    InWindow (load (0x3A :: bodyText.take 5 ++ [0x44]) 0) ∧
    asciiDec true (load (0x3A :: bodyText.take 5 ++ [0x44]) 0).inBytes = .error .lrc := by unfold InWindow; decide

theorem witness_AsciiFrameLaws : 0x3A ∉ bodyText ∧ (asciiScan (asciiRequest ++ [0x7A])).none = false ∧
    (asciiScan (asciiRequest ++ [0x7A])).frames = [(0, 17)] ∧
    (asciiScan [0x47, 0x3A, 0x30]).none = false ∧ (asciiScan [0x47, 0x3A, 0x30]).frames = [] := by decide

/-- A line with junk before its ':' and a second ':' in it, between a line without a ':' and a remainder; and one that is the
whole buffer. -/
theorem witness_AsciiFrameLaws_line :
    ([0x47, 0x0A, 0x47, 0x3A, 0x30, 0x3A, 0x0A, 0x3A] : List Byte) =
      [0x47, 0x0A] ++ [0x47] ++ [0x3A] ++ [0x30, 0x3A] ++ [0x0A] ++ [0x3A] ∧
    ([0x47, 0x0A] : List Byte).getLast? = some 0x0A ∧ (0x3A : Byte) ∉ [(0x47 : Byte)] ∧ (0x0A : Byte) ∉ [(0x47 : Byte)] ∧
    (0x0A : Byte) ∉ [(0x30 : Byte), 0x3A] ∧
    (asciiScan [0x47, 0x0A, 0x47, 0x3A, 0x30, 0x3A, 0x0A, 0x3A]).frames = [(3, 4)] ∧
    ([0x3A, 0x0A] : List Byte) = [] ++ [] ++ [0x3A] ++ [] ++ [0x0A] ++ [] := by decide

theorem witness_FramersPostTheirScan : InWindow (atEdge rtuRequest) ∧ InWindow (load [] 0) := by unfold InWindow; decide

theorem witness_RtuDecResult : InWindow (load rtuRequest 0) ∧ (load rtuRequest 0).inBytes = request ++ [0xC5, 0xCD] ∧
    2 ≤ request.length ∧ (0xC5 : Byte) = (crcOf 0xFFFF request).setWidth 8 ∧
    (0xCD : Byte) = (crcOf 0xFFFF request >>> 8).setWidth 8 ∧
    (load [0x01, 0x81, 0x80, 0x00] 0).inBytes = [0x01, 0x81] ++ [0x80, 0x00] ∧
    (0x80 : Byte) ≠ (crcOf 0xFFFF [0x01, 0x81]).setWidth 8 ∧
    InWindow (load [0x01, 0x02, 0x03] 0) ∧ (load [0x01, 0x02, 0x03] 0).inBytes.length < 4 := by unfold InWindow; decide

theorem witness_LengthEstimatorClasses :
    (([0x01] : List Byte).length < 2) ∧ ([0x01, 0x06] : List Byte)[1]? = some 0x06 ∧ (0x06 : Byte) ∈ [1, 2, 3, 4, 5, 6] ∧
    (0x11 : Byte) ∈ [7, 11, 12, 17] ∧ (0x10 : Byte) ∈ [15, 16] ∧
    ([0x01, 0x10, 0x00, 0x01, 0x00, 0x01] : List Byte).length < 7 ∧
    ([0x01, 0x10, 0x00, 0x01, 0x00, 0x01, 0x02] : List Byte)[6]? = some 0x02 ∧
    (0x08 : Byte) ∉ [1, 2, 3, 4, 5, 6, 7, 11, 12, 15, 16, 17] ∧ 0x80 ≤ (0x80 : Byte).toNat ∧
    (0x0B : Byte) ∈ [1, 2, 3, 4, 11] ∧ ([0x01, 0x0B, 0x02] : List Byte)[2]? = some 0x02 ∧
    ([0x01, 0x0B] : List Byte).length < 3 ∧ (0x0F : Byte) ∈ [5, 6, 15, 16] ∧ (0x7F : Byte).toNat < 0x80 ∧
    (0x7F : Byte) ∉ [1, 2, 3, 4, 5, 6, 11, 15, 16] := by decide

theorem witness_RtuEstResult : estReq (load request 0).inBytes = .length 6 ∧ estRsp (load [0x01, 0x03] 0).inBytes = .notYet ∧
    estReq (load [0x01, 0x08] 0).inBytes = .rest := by decide

theorem witness_RtuFrameLaws : WholeRequest rtuRequest := ⟨6, by decide, by decide⟩

/-- A scan that stops before the end: one byte left, a response class without its count byte, and a length with a byte of the
frame missing. -/
theorem witness_RtuFrameLaws_stop :
    (rtuScan true (rtuRequest ++ [0x01])).stop < (rtuRequest ++ [0x01]).length ∧
    (rtuScan false [0x01, 0x03]).stop < ([0x01, 0x03] : List Byte).length ∧
    (rtuScan false [0x01, 0x83, 0x01, 0x31]).stop < ([0x01, 0x83, 0x01, 0x31] : List Byte).length ∧
    estRsp [0x01, 0x83, 0x01, 0x31] = .length 3 := by decide

theorem witness_TcpValidResult : (load ([0x12, 0x34, 0x00, 0x00, 0x00, 0x06, 0x01] ++ [0x03, 0x00, 0x00, 0x00, 0x0A]) 0).inBytes =
      [0x12, 0x34, 0x00, 0x00, 0x00, 0x06, 0x01] ++ [0x03, 0x00, 0x00, 0x00, 0x0A] ∧
    InWindow (load (tcpRequest.take 7) 0) ∧ (load (tcpRequest.take 7) 0).inBytes.length < 8 ∧
    InWindow (load tcpRequest 0) := by unfold InWindow; decide

theorem witness_TcpDecResult : InWindow (load tcpRequest 0) ∧
    (load tcpRequest 0).inBytes = [0x12, 0x34, 0x00, 0x00, 0x00, 0x06] ++ request ∧ 2 ≤ request.length ∧
    request.length ≤ 256 ∧ 256 * (0x00 : Byte).toNat + (0x06 : Byte).toNat = request.length ∧
    tcpValid (load (tcpRequest.take 7) 0).inBytes none none = .error .short ∧ InWindow (load (tcpRequest.take 7) 0) := by
  unfold InWindow; decide

theorem witness_TcpFrameLaws : (tcpScan (tcpRequest ++ [0x00])).drop = false ∧
    (tcpScan (tcpRequest ++ [0x00, 0x02, 0x00, 0x01, 0x00, 0x06])).drop = true ∧
    (tcpScan tcpRequest).frames = [(0, 12)] ∧ (tcpScan (tcpRequest.take 11)).drop = false ∧
    (tcpScan [0x00, 0x02, 0x00, 0x00, 0x00, 0x01]).none = true := by decide

/-- The three kinds of bad header, each at its boundary, and a header that waits for one byte more. -/
theorem witness_TcpFrameLaws_header : BadHeader [0x00, 0x02, 0x01, 0x00, 0x00, 0x06] ∧
    BadHeader [0x00, 0x02, 0x00, 0x01, 0x00, 0x06] ∧ BadHeader [0x00, 0x02, 0x00, 0x00, 0x00, 0x01] ∧
    AwaitsBytes [0x00, 0x02, 0x00, 0x01, 0x00] ∧ AwaitsBytes [0x00, 0x02, 0x00, 0x00, 0x00, 0x02, 0x01] :=
  ⟨⟨_, _, _, _, _, _, [], rfl, .inl (by decide)⟩, ⟨_, _, _, _, _, _, [], rfl, .inr (.inl (by decide))⟩,
    ⟨_, _, _, _, _, _, [], rfl, .inr (.inr (by decide))⟩, .inl (by decide), .inr ⟨_, _, _, _, [0x01], rfl, by decide, by decide⟩⟩

theorem witness_ClearAndSetseqResult : State.reset.cfg.hasTxn = true ∧ InWindow (load [] 0) ∧ (load [] 0).inBytes = [] ∧
    InWindow (load [0xAB] 0) ∧ (load [0xAB] 0).inBytes = [0xAB] ∧ InWindow (load [0x12, 0x34, 0x56] 0) ∧
    (load [0x12, 0x34, 0x56] 0).inBytes = [0x12, 0x34, 0x56] ∧ outside.cfg.hasTxn = true := by unfold InWindow; decide

theorem witness_SetreqResult : (load rtuRequest 0).cfg.hasTxn = true ∧ InWindow (load rtuRequest 0) ∧
    (load rtuRequest 0).txn.state = .empty ∧
    decP true .rtu (load rtuRequest 0).inBytes = .ok (none, 0x01 :: [0x03, 0x00, 0x00, 0x00, 0x0A]) ∧
    decP true .rtu (load (request ++ [0xCD, 0xC5]) 0).inBytes = .error .crc ∧
    InWindow (withRecord recordA (load rtuRequest 0)) ∧ (withRecord recordA (load rtuRequest 0)).txn.state ≠ .empty := by
  unfold InWindow; decide

/-- A TCP frame of 262 bytes carries an ADU of 255 bytes, the largest the record takes (R300). -/
theorem witness_SetreqResult_largest :
    (decP true .tcp (load ([0x00, 0x01, 0x00, 0x00, 0x01, 0x00] ++ List.replicate 256 0x03) 0).inBytes).toOption =
      some (some (0x00, 0x01), 0x03 :: List.replicate 255 0x03) ∧ (List.replicate 255 (0x03 : Byte)).length ≤ aduLimit .tcp := by
  refine ⟨by decide +kernel, by rw [List.length_replicate]; decide⟩

/-- TC6: an ASCII frame that carries an ADU of 253 bytes, one more than the record takes (R300). -/
theorem witness_SetreqResult_aduMax :
    (decP true .ascii ([0x3A, 0x30, 0x31] ++ (List.replicate 253 [0x30, 0x33]).flatten ++ [0x30, 0x38, 0x0D, 0x0A])).toOption =
      some (none, 0x01 :: List.replicate 253 0x03) ∧ aduLimit .ascii < (List.replicate 253 (0x03 : Byte)).length := by
  refine ⟨by decide +kernel, by rw [List.length_replicate]; decide⟩

theorem witness_StoredAduIsRendered : (withRecord recordA State.reset).txn.state ≠ .empty ∧
    (withRecord recordA State.reset).txn.reqAdu ≠ [] ∧ State.reset.txn.state = .empty ∧
    (withRecord recordR State.reset).txn.state = .responseSet ∧ (withRecord recordR State.reset).txn.rspAdu ≠ [] ∧
    (withRecord recordA State.reset).txn.state ≠ .responseSet ∧ State.reset.cfg.hasTxn = true := by decide

/-- The RTU response of TA10, its unit id the request's; and the same with unit id 02. -/
theorem witness_SetrspSerialResult : (withRecord recordA State.reset).txn.state = .requestSet ∧
    decP true .rtu (load [0x01, 0x03, 0x02, 0x12, 0x34, 0xB5, 0x33] 0).inBytes =
      .ok (none, 0x01 :: [0x03, 0x02, 0x12, 0x34]) ∧
    recordA.unit = 0x01 ∧ { recordA with unit := 0x11 }.unit ≠ 0x01 ∧
    InWindow (withRecord recordA (load [0x01, 0x03, 0x02, 0x12, 0x34, 0xB5, 0x33] 0)) ∧
    decP true .rtu (load [0x01, 0x03] 0).inBytes = .error .short ∧ Protocol.rtu ≠ .tcp := by unfold InWindow; decide

theorem witness_SetrspTcpResult : InWindow (withRecord recordA (load tcpResponse 0)) ∧
    (withRecord recordA (load tcpResponse 0)).txn.state = .requestSet ∧
    tcpResponse = [0x00, 0x07, 0x00, 0x00, 0x00, 0x05, 0x01] ++ [0x03, 0x02, 0x12, 0x34] ∧
    256 * (0x00 : Byte).toNat + (0x05 : Byte).toNat = ([0x03, 0x02, 0x12, 0x34] : List Byte).length + 1 ∧
    recordA.seq = (0x00, 0x07) ∧ { recordA with seq := (0x00, 0x08) }.seq ≠ (0x00, 0x07) ∧ recordA.unit = 0x01 ∧
    { recordA with unit := 0x02 }.unit ≠ 0x01 ∧ State.reset.cfg.rspCheckSeq = true ∧
    tcpValid (tcpResponse.take 7) none none = .error .short := by unfold InWindow; decide

theorem witness_SetrspTcpResult_holds : HoldsInput (withRecord recordA (load tcpResponse 0)) tcpResponse := by
  refine ⟨by decide, fun k h => ?_⟩
  have h' : k < 11 := h
  interval_cases k <;> rfl

theorem witness_NorspResult : recordA.state = .requestSet ∧ recordA.reqAdu = 0x03 :: [0x00, 0x00, 0x00, 0x0A] ∧
    { recordA with state := .timedOut }.state = .timedOut ∧ State.reset.txn.state = .empty ∧
    recordR.state = .responseSet ∧ (2 : BitVec 2) ≠ 3 := by decide

theorem witness_CrossProtocolPreservation : ∃ t, exec (.txnSetreq (tag .rtu)) (load rtuRequest 0) = .next t ∧
    t.status.err = 0 ∧ decP true .rtu (load rtuRequest 0).inBytes = .ok (none, request) := ⟨_, rfl, by decide, by decide⟩

theorem witness_SuccessSetsTheTableFlag :
    (∃ t, exec .crc16 (load request 0) = .next t ∧ t.status.err = 0 ∧ usesCrc .crc16 = true) ∧
    ∃ t, exec .lrc (load request 0) = .next t ∧ t.status.err = 0 ∧ usesCrc .lrc = false :=
  ⟨⟨_, rfl, by decide, rfl⟩, _, rfl, by decide, rfl⟩

end Sys2Proof.Tests
end

/-! # Every step keeps the invariant (O17)

`perform` writes STATUS itself; the rest of the invariant is what a command's body has to establish. So a body is followed
from a state that is ready for it (`State.Ready`: the invariant, with the result registers cleared) to a completed state
(`State.BodyInv`: the invariant without STATUS). A body that raises is undone by `perform`, and a host access or a reset
touches too little to matter. -/

namespace Sys2Proof.Machine

/-! ### What the codecs and the framers give: lengths and bounds -/

theorem length_hexU (s : List Byte) : (hexU s).length = 2 * s.length := by
  simp [hexU, List.length_flatMap, Nat.mul_comm]

/-- An ASCII frame is two digits for each byte and for the LRC, between ':' and CR LF (R182). -/
theorem length_of_asciiEnc {s d : List Byte} (h : asciiEnc s = .ok d) : d.length = 2 * s.length + 5 := by
  unfold asciiEnc at h
  split at h
  · cases h
  · cases h
    simp only [List.length_append, length_hexU, List.length_cons, List.length_nil]
    omega

/-- An RTU frame is the bytes and their CRC (R221). -/
theorem length_of_rtuEnc {s d : List Byte} (h : rtuEnc s = .ok d) : d.length = s.length + 2 := by
  unfold rtuEnc at h
  split at h
  · cases h
  · cases h; simp [crcWire]

/-- A TCP frame is the first 6 bytes of the header and the unit+ADU (R261). -/
theorem length_of_tcpEnc {t : Byte × Byte} {s d : List Byte} (h : tcpEnc t s = .ok d) : d.length = s.length + 6 := by
  unfold tcpEnc at h
  dsimp only at h
  split at h
  · cases h
  · cases h; simp

/-- No encoder gives more than two bytes for each byte it is given, and 6 more (R303). -/
theorem length_of_encP {q : Byte × Byte} {p : Protocol} {s d : List Byte} (h : encP q p s = .ok d) :
    d.length ≤ 2 * s.length + 6 := by
  cases p with
  | ascii => have := length_of_asciiEnc h; omega
  | rtu => have := length_of_rtuEnc h; omega
  | tcp => have := length_of_tcpEnc h; omega

theorem maxAdu_le (p : Protocol) : maxAdu p ≤ 255 := by cases p <;> decide

/-- The frames have at least one byte each and end at or before `p`, and there are no more of them than `p` bytes. -/
structure FramesBelow (p : Nat) (fs : List (Nat × Nat)) : Prop where
  count : fs.length ≤ p
  bounds : ∀ f ∈ fs, 1 ≤ f.2 ∧ f.1 + f.2 ≤ p

theorem FramesBelow.nil (p : Nat) : FramesBelow p [] := ⟨Nat.zero_le p, fun _ h => nomatch h⟩

theorem FramesBelow.mono {p q : Nat} {fs : List (Nat × Nat)} (h : FramesBelow p fs) (hpq : p ≤ q) : FramesBelow q fs :=
  ⟨h.count.trans hpq, fun f hf => ⟨(h.bounds f hf).1, (h.bounds f hf).2.trans hpq⟩⟩

/-- A frame that ends beyond `p` is added. -/
theorem FramesBelow.snoc {p q : Nat} {fs : List (Nat × Nat)} (h : FramesBelow p fs) (hpq : p < q) {start len : Nat}
    (hlen : 1 ≤ len) (hend : start + len ≤ q) : FramesBelow q (fs ++ [(start, len)]) where
  count := by
    have := h.count
    rw [List.length_append, List.length_singleton]
    omega
  bounds f hf := by
    rcases List.mem_append.1 hf with hf | hf
    · exact (h.mono hpq.le).bounds f hf
    · rw [List.mem_singleton.1 hf]; exact ⟨hlen, hend⟩

/-- The loop of ASCII_FRAME adds only frames that lie in the buffer: each ends with an LF of it (R190). -/
theorem framesBelow_asciiLoop {b : List Byte} {fuel p : Nat} {fs : List (Nat × Nat)} {drop : Bool}
    (hp : p ≤ b.length) (h : FramesBelow p fs) : FramesBelow b.length (asciiLoop b fuel p fs drop).frames := by
  induction fuel generalizing p fs drop with
  | zero => exact h.mono hp
  | succ fuel ih =>
    unfold asciiLoop
    split
    · exact h.mono hp
    · rename_i j hj
      obtain ⟨hpj, hjb, -, -⟩ := find_some hj
      split
      · exact ih (by omega) (h.mono (by omega))
      · rename_i s hs
        obtain ⟨-, hsj, -, -⟩ := find_some hs
        exact ih (by omega) (h.snoc (by omega) (by omega) (by omega))

theorem framesBelow_asciiScan (b : List Byte) : FramesBelow b.length (asciiScan b).frames := by
  unfold asciiScan
  split
  · exact .nil _
  · rename_i p hp
    obtain ⟨-, hpb, -, -⟩ := find_some hp
    exact framesBelow_asciiLoop hpb.le (.nil _)

/-- The loop of RTU_FRAME adds only frames that lie in the buffer (R232). -/
theorem framesBelow_rtuLoop {req : Bool} {b : List Byte} {fuel p : Nat} {fs : List (Nat × Nat)}
    (hp : p ≤ b.length) (h : FramesBelow p fs) : FramesBelow b.length (rtuLoop req b fuel p fs).frames := by
  induction fuel generalizing p fs with
  | zero => exact h.mono hp
  | succ fuel ih =>
    unfold rtuLoop
    split
    · split
      · exact h.mono hp
      · exact h.snoc (by omega) (by omega) (by omega)
      · split
        · exact ih (by omega) (h.snoc (by omega) (by omega) (by omega))
        · exact h.mono hp
    · exact h.mono hp

theorem framesBelow_rtuScan (req : Bool) (b : List Byte) : FramesBelow b.length (rtuScan req b).frames :=
  framesBelow_rtuLoop (Nat.zero_le _) (.nil _)

/-- The loop of TCP_FRAME adds only frames that lie in the buffer (R275). -/
theorem framesBelow_tcpLoop {b : List Byte} {fuel p : Nat} {fs : List (Nat × Nat)}
    (hp : p ≤ b.length) (h : FramesBelow p fs) : FramesBelow b.length (tcpLoop b fuel p fs).frames := by
  induction fuel generalizing p fs with
  | zero => exact h.mono hp
  | succ fuel ih =>
    unfold tcpLoop
    dsimp only
    split
    · exact h.mono hp
    · split
      · exact h.mono hp
      · split
        · exact h.mono hp
        · exact ih (by omega) (h.snoc (by omega) (by omega) (by omega))

theorem framesBelow_tcpScan (b : List Byte) : FramesBelow b.length (tcpScan b).frames :=
  framesBelow_tcpLoop (Nat.zero_le _) (.nil _)

/-! ### The invariant before, during and after a command's body -/

/-- The invariant without STATUS, which `perform` writes when the body is over. -/
structure State.BodyInv (s : State) : Prop where
  valid : s.cfg.Valid
  memory : s.MemoryInv
  outputs : s.OutputInv
  txn : s.TxnInv

/-- The state a body finds: the invariant holds and the result registers are cleared (R355). -/
structure State.Ready (s : State) : Prop where
  valid : s.cfg.Valid
  memory : s.MemoryInv
  cleared : s.outs = OutputRegs.zero
  txn : s.TxnInv

theorem State.Inv.ready {s : State} (h : s.Inv) : s.clearOutputs.Ready := by
  obtain ⟨hvalid, hmemory, -, -, htxn⟩ := h
  exact ⟨hvalid, hmemory, rfl, htxn⟩

/-- Cleared result registers describe nothing, so they describe defined data. -/
theorem State.outputInv_of_cleared {s : State} (h : s.outs = OutputRegs.zero) : s.OutputInv := by
  unfold State.OutputInv
  rw [h]
  exact ⟨Nat.zero_le _, fun i hi => absurd hi (Nat.not_lt_zero i), Nat.zero_le _,
    fun k hk => absurd hk (Nat.not_lt_zero k), ⟨rfl, rfl⟩, by decide⟩

theorem State.Ready.bodyInv {s : State} (h : s.Ready) : s.BodyInv :=
  ⟨h.valid, h.memory, State.outputInv_of_cleared h.cleared, h.txn⟩

theorem State.BodyInv.post_ok {s : State} (h : s.BodyInv) : (s.post Status.ok).Inv :=
  ⟨h.valid, h.memory, h.outputs, .inl ⟨rfl, rfl⟩, h.txn⟩

/-! ### What each update of the state keeps -/

theorem State.Ready.tick {s : State} (h : s.Ready) (n : Nat) : (s.tick n).Ready := ⟨h.valid, h.memory, h.cleared, h.txn⟩

theorem State.Ready.readIn {s : State} (h : s.Ready) : s.readIn.Ready := h.tick _

theorem State.Ready.noteTable {s : State} (h : s.Ready) (built : Bool) : (s.noteTable built).Ready :=
  ⟨h.valid, h.memory, h.cleared, h.txn⟩

theorem State.Ready.setTxn {s : State} (h : s.Ready) {r : TxnRecord} (hr : (s.setTxn r).TxnInv) : (s.setTxn r).Ready :=
  ⟨h.valid, h.memory, h.cleared, hr⟩

theorem State.BodyInv.setResult {s : State} (h : s.BodyInv) (v : Half) : (s.setResult v).BodyInv :=
  ⟨h.valid, h.memory, h.outputs, h.txn⟩

theorem State.BodyInv.setNone {s : State} (h : s.BodyInv) : s.setNone.BodyInv :=
  ⟨h.valid, h.memory, h.outputs, h.txn⟩

theorem State.BodyInv.setEst {s : State} (h : s.BodyInv) {e : BitVec 2} (he : e ≠ 3) : (s.setEst e).BodyInv := by
  obtain ⟨hlen, hout, hcount, hdesc, hrem, -⟩ := h.outputs
  exact ⟨h.valid, h.memory, ⟨hlen, hout, hcount, hdesc, hrem, he⟩, h.txn⟩

theorem half_toNat {n : Nat} (h : n < 65536) : (BitVec.ofNat 16 n).toNat = n := by
  rw [BitVec.toNat_ofNat, Nat.mod_eq_of_lt h]

/-- `OUT <- d` defines the bytes it counts, where `d` fits OUT_BUF (R7, R39). -/
theorem State.Ready.setOut {s : State} (h : s.Ready) {d : List Byte} (hd : d.length ≤ s.cfg.outCap) :
    (s.setOut d).BodyInv := by
  obtain ⟨hinWf, houtWf, hfdescWf, hinCap, houtCap, hfdescCap⟩ := h.memory
  have hcap : s.cfg.outCap ≤ 65512 := by have := h.valid.2; unfold Config.outCap; omega
  have hlen : (s.setOut d).outs.outLen.toNat = d.length := half_toNat (by omega)
  have hread : ∀ i, i < d.length → ∃ b, (s.setOut d).outBuf.read i = some b := fun i hi =>
    ⟨d[i], by rw [State.setOut_outBuf, Memory.read_writeList_zero, if_pos hi, List.getElem?_eq_getElem hi]⟩
  obtain ⟨-, -, hcount, hdesc, hrem, hest⟩ := h.bodyInv.outputs
  refine ⟨h.valid, ⟨hinWf, Memory.wf_writeList houtWf _ _, hfdescWf, hinCap,
    Memory.bound_writeList houtCap _ _ (by omega), hfdescCap⟩, ⟨?_, ?_, hcount, hdesc, hrem, hest⟩, h.txn⟩
  · rw [hlen]; exact hd
  · rw [hlen]; exact hread

/-- A framer's outputs describe what lies in IN_BUF, where its window does (R41, R42). -/
theorem State.Ready.setFrames {s : State} (h : s.Ready) {base : Nat} {b : List Byte} {c : Scan}
    (hb : base + b.length ≤ s.cfg.bufCap) (hc : FramesBelow b.length c.frames) : (s.setFrames base b c).BodyInv := by
  obtain ⟨hinWf, houtWf, hfdescWf, hinCap, houtCap, hfdescCap⟩ := h.memory
  obtain ⟨hlen, hout, -, -, -, hest⟩ := h.bodyInv.outputs
  have hcap := h.valid.2
  have hcount : (s.setFrames base b c).outs.frameCount.toNat = c.frames.length :=
    half_toNat (by have := hc.count; omega)
  refine ⟨h.valid, ⟨hinWf, houtWf, Memory.wf_writeList hfdescWf _ _, hinCap, houtCap,
    Memory.bound_writeList hfdescCap _ _ ?_⟩, ⟨hlen, hout, ?_, ?_, ?_, hest⟩, h.txn⟩
  · have := hc.count
    rw [List.length_map]
    omega
  · have := hc.count
    rw [hcount, State.setFrames_cfg]
    omega
  · rw [hcount]
    intro k hk
    obtain ⟨hne, hend⟩ := hc.bounds _ (List.getElem_mem hk)
    refine ⟨base + c.frames[k].1, c.frames[k].2, ?_, hne, ?_⟩
    · rw [State.setFrames_fdesc, Memory.read_writeList_zero, List.length_map, if_pos hk, List.getElem?_map,
        List.getElem?_eq_getElem hk]
      rfl
    · rw [State.setFrames_cfg]; omega
  · rw [State.setFrames_cfg]
    by_cases hstop : c.stop < b.length
    · simp only [State.setFrames, hstop, decide_true, if_true]
      rw [half_toNat (by omega), half_toNat (by omega)]
      omega
    · simp [State.setFrames, hstop, h.cleared, OutputRegs.zero]

/-! ### The record -/

/-- A record that is not empty holds a request (R48). -/
theorem State.TxnInv.hasRequest {s : State} (h : s.TxnInv) (hs : s.txn.state ≠ .empty) : s.txn.HasRequest s.cfg.bufCap := by
  unfold State.TxnInv at h
  split at h
  · exact absurd ‹_› hs
  all_goals exact h.1

/-- A record whose state is not ResponseSet holds no response (R48). -/
theorem State.TxnInv.noResponse {s : State} (h : s.TxnInv) (hs : s.txn.state ≠ .responseSet) : s.txn.NoResponse := by
  unfold State.TxnInv at h
  split at h
  case h_3 => exact absurd ‹_› hs
  all_goals exact h.2

/-- A record in ResponseSet holds a response (R48). -/
theorem State.TxnInv.hasResponse {s : State} (h : s.TxnInv) (hs : s.txn.state = .responseSet) :
    s.txn.HasResponse s.cfg.bufCap := by
  unfold State.TxnInv at h
  rw [hs] at h
  exact h.2

/-- The record after TXN_CLEAR (R305). -/
theorem State.Ready.setTxn_reset {s : State} (h : s.Ready) : (s.setTxn TxnRecord.reset).Ready :=
  h.setTxn (And.intro ⟨rfl, rfl, rfl, rfl⟩ ⟨rfl, rfl, rfl⟩)

/-- The transaction id is no part of the invariant (R306). -/
theorem State.Ready.setTxn_seq {s : State} (h : s.Ready) (q : Byte × Byte) : (s.setTxn { s.txn with seq := q }).Ready :=
  h.setTxn h.txn

/-- The record of a stored request (R308). -/
theorem State.Ready.setTxn_request {s : State} (h : s.Ready) (hs : s.txn.state = .empty) {p : Protocol}
    {raw adu : List Byte} (unit : Byte) (q : Byte × Byte) (hadu : 1 ≤ adu.length ∧ adu.length ≤ maxAdu p)
    (hraw : raw.length ≤ s.cfg.bufCap) :
    (s.setTxn { s.txn with
      state := .requestSet, unit := unit, seq := q, reqProto := p, reqRaw := raw, reqAdu := adu }).Ready :=
  h.setTxn (And.intro ⟨hadu.1, hadu.2, hraw⟩ (h.txn.noResponse (by rw [hs]; decide)))

/-- The record of a stored response (R312). -/
theorem State.Ready.setTxn_response {s : State} (h : s.Ready) (hs : s.txn.state = .requestSet) {p : Protocol}
    {raw adu : List Byte} (hadu : 1 ≤ adu.length ∧ adu.length ≤ maxAdu p) (hraw : raw.length ≤ s.cfg.bufCap) :
    (s.setTxn { s.txn with state := .responseSet, rspProto := p, rspRaw := raw, rspAdu := adu }).Ready :=
  h.setTxn (And.intro (h.txn.hasRequest (by rw [hs]; decide)) ⟨hadu.1, hadu.2, hraw⟩)

/-- The record after the gateway gave up on a request (R316). -/
theorem State.Ready.setTxn_timedOut {s : State} (h : s.Ready) (hs : s.txn.state ∈ [TxnState.requestSet, .timedOut]) :
    (s.setTxn { s.txn with state := .timedOut }).Ready := by
  have hne : s.txn.state ≠ .empty := ne_of_mem_of_not_mem hs (by decide)
  have hne' : s.txn.state ≠ .responseSet := ne_of_mem_of_not_mem hs (by decide)
  exact h.setTxn (And.intro (h.txn.hasRequest hne) (h.txn.noResponse hne'))

/-! ### The bodies -/

/-- The window of a command that passed the bound check lies in IN_BUF (R353). -/
theorem State.window_le {s : State} (h : s.inBound = true) : s.opnd.inOfs.toNat + s.inBytes.length ≤ s.cfg.bufCap := by
  rw [State.length_inBytes]
  exact s.inBound_iff.1 h

theorem State.length_inBytes_le {s : State} (h : s.inBound = true) : s.inBytes.length ≤ s.cfg.bufCap :=
  Nat.le_of_add_left_le (State.window_le h)

/-- OUT_BUF has room for what a codec gives for `n` bytes of IN_BUF (R7). -/
theorem Config.le_outCap {c : Config} {n k : Nat} (hn : n ≤ c.bufCap) (hk : k ≤ 2 * n + 6) : k ≤ c.outCap := by
  unfold Config.outCap
  omega

theorem bodyInv_outOrRaise {s t : State} (hs : s.Ready) {r : Except Reason (List Byte)} {n : Nat}
    (hn : n ≤ s.cfg.bufCap) (hr : ∀ d, r = .ok d → d.length ≤ 2 * n + 6) (h : outOrRaise r s = .done t) : t.BodyInv := by
  obtain ⟨d, hd, rfl⟩ := outOrRaise_done h
  exact hs.setOut (Config.le_outCap hn (hr d hd))

/-- A framer's body (R190, R232, R275). -/
theorem bodyInv_framer {s t : State} (hs : s.Ready) {scan : List Byte → Scan}
    (hscan : ∀ b, FramesBelow b.length (scan b).frames)
    (h : withIn (fun b s => .done (s.setFrames s.opnd.inOfs.toNat b (scan b))) s = .done t) : t.BodyInv := by
  obtain ⟨hin, h⟩ := withIn_done h
  cases h
  exact hs.readIn.setFrames (State.window_le hin) (hscan _)

/-- A rendered ADU of at most `maxADU` bytes fits OUT_BUF over every protocol (R310, R314). -/
theorem bodyInv_renderAdu {s t : State} (hs : s.Ready) {p q : Protocol} {adu : List Byte} (hadu : adu.length ≤ maxAdu q)
    (h : renderAdu p adu s = .done t) : t.BodyInv := by
  have hfits : (s.txn.unit :: adu).length ≤ s.cfg.bufCap := by
    have hmax := maxAdu_le q
    have hcap := hs.valid.1
    rw [List.length_cons]
    omega
  exact bodyInv_outOrRaise (hs.noteTable _) hfits (fun _ hd => length_of_encP hd) h

theorem bodyInv_storeRequest {s t : State} (hs : s.Ready) (hin : s.inBound = true) (hst : s.txn.state = .empty)
    {p : Protocol} {f : List Byte} (h : storeRequest p f s = .done t) : t.BodyInv := by
  unfold storeRequest at h
  split at h
  · cases h
  · rename_i tid d hdec
    obtain ⟨hd, -⟩ := length_of_decP hdec
    dsimp only at h
    split at h
    · cases h
    · rename_i hmax
      cases h
      have hadu : 1 ≤ (d.drop 1).length := by rw [List.length_drop]; omega
      have hraw := State.length_inBytes_le hin
      exact ((hs.noteTable _).readIn.setTxn_request hst _ _ ⟨hadu, Nat.le_of_not_lt hmax⟩ hraw).bodyInv.setResult _

theorem bodyInv_storeResponse {s t : State} (hs : s.Ready) (hin : s.inBound = true) (hst : s.txn.state = .requestSet)
    {p : Protocol} {d : List Byte} (hd : 2 ≤ d.length) (h : storeResponse p d s = .done t) : t.BodyInv := by
  unfold storeResponse at h
  dsimp only at h
  split at h
  · cases h
  · rename_i hmax
    cases h
    have hadu : 1 ≤ (d.drop 1).length := by rw [List.length_drop]; omega
    have hraw := State.length_inBytes_le hin
    exact (hs.readIn.setTxn_response hst ⟨hadu, Nat.le_of_not_lt hmax⟩ hraw).bodyInv.setResult _

/-- The frame that was validated and the unit+ADU that is stored are two readings of IN, of the same length (R312; log 2). -/
theorem bodyInv_setrspTcp {s t : State} (hs : s.Ready) (hin : s.inBound = true) (hst : s.txn.state = .requestSet)
    {f : List Byte} (hf : f.length = s.inBytes.length) (h : setrspTcp f s = .done t) : t.BodyInv := by
  unfold setrspTcp at h
  split at h
  · cases h
  · have hlen := eight_le_of_tcpValid ‹_›
    refine bodyInv_storeResponse hs.readIn hin hst ?_ h
    rw [slice_to_end, List.length_drop]
    omega

theorem bodyInv_setrspSerial {s t : State} (hs : s.Ready) (hin : s.inBound = true) (hst : s.txn.state = .requestSet)
    {p : Protocol} {f : List Byte} (h : setrspSerial p f s = .done t) : t.BodyInv := by
  unfold setrspSerial at h
  split at h
  · cases h
  · rename_i hdec
    dsimp only at h
    split at h
    · cases h
    · exact bodyInv_storeResponse (hs.noteTable _) hin hst (length_of_decP hdec).1 h

theorem bodyInv_txnSetreq {s t : State} (hs : s.Ready) {q : BitVec 2} (h : bodyTxnSetreq q s = .done t) : t.BodyInv := by
  obtain ⟨-, h⟩ := withTxn_done h
  obtain ⟨hin, h⟩ := withBound_done h
  obtain ⟨hst, p, -, h⟩ := withProto_done h
  exact bodyInv_storeRequest hs.readIn hin (List.mem_singleton.1 hst) h

theorem bodyInv_txnGetreq {s t : State} (hs : s.Ready) {q : BitVec 2} (h : bodyTxnGetreq q s = .done t) : t.BodyInv := by
  obtain ⟨-, h⟩ := withTxn_done h
  obtain ⟨hst, p, -, h⟩ := withProto_done h
  have hne : s.txn.state ≠ .empty := ne_of_mem_of_not_mem hst (by decide)
  obtain ⟨-, hmax, -⟩ := hs.txn.hasRequest hne
  exact bodyInv_renderAdu hs hmax h

theorem bodyInv_txnSetrsp {s t : State} (hs : s.Ready) {q : BitVec 2} (h : bodyTxnSetrsp q s = .done t) : t.BodyInv := by
  obtain ⟨-, h⟩ := withTxn_done h
  obtain ⟨hin, h⟩ := withBound_done h
  obtain ⟨hst, p, -, h⟩ := withProto_done h
  replace hst := List.mem_singleton.1 hst
  cases p with
  | ascii => exact bodyInv_setrspSerial hs.readIn hin hst h
  | rtu => exact bodyInv_setrspSerial hs.readIn hin hst h
  | tcp => exact bodyInv_setrspTcp hs.readIn hin hst (by simp) h

theorem bodyInv_txnGetrsp {s t : State} (hs : s.Ready) {q : BitVec 2} (h : bodyTxnGetrsp q s = .done t) : t.BodyInv := by
  obtain ⟨-, h⟩ := withTxn_done h
  obtain ⟨hst, p, -, h⟩ := withProto_done h
  obtain ⟨-, hmax, -⟩ := hs.txn.hasResponse (List.mem_singleton.1 hst)
  exact bodyInv_renderAdu hs hmax h

theorem bodyInv_txnNorsp {s t : State} (hs : s.Ready) {q : BitVec 2} (h : bodyTxnNorsp q s = .done t) : t.BodyInv := by
  obtain ⟨-, h⟩ := withTxn_done h
  obtain ⟨hst, p, -, h⟩ := withProto_done h
  have hready := hs.setTxn_timedOut hst
  cases p with
  | ascii => cases h; exact hready.bodyInv.setNone
  | rtu => cases h; exact hready.bodyInv.setNone
  | tcp =>
    have hfits : 3 ≤ s.cfg.bufCap := Nat.le_trans (by decide) hs.valid.1
    refine bodyInv_outOrRaise (hready.tick 1) hfits (fun d hd => ?_) h
    rw [length_of_tcpEnc hd]
    simp

/-- Every command that completes has established the invariant but for STATUS, which it posts next. -/
theorem bodyInv_bodyOf {i : Instr} {s t : State} (hs : s.Ready) (h : bodyOf i s = .done t) : t.BodyInv := by
  cases i with
  | lrc =>
    unfold bodyOf bodyLrc at h
    obtain ⟨-, h⟩ := withIn_done h
    split at h
    · cases h
    · cases h; exact hs.readIn.bodyInv.setResult _
  | crc16 =>
    unfold bodyOf bodyCrc16 at h
    obtain ⟨-, h⟩ := withIn_done h
    split at h
    · cases h
    · cases h; exact (hs.readIn.noteTable _).bodyInv.setResult _
  | crctab => cases h; exact (hs.noteTable _).bodyInv.setResult _
  | asciiEnc =>
    unfold bodyOf bodyAsciiEnc at h
    obtain ⟨hin, h⟩ := withIn_done h
    have hle := State.length_inBytes_le hin
    exact bodyInv_outOrRaise hs.readIn hle
      (fun d hd => by rw [length_of_asciiEnc hd]; omega) h
  | asciiDec =>
    unfold bodyOf bodyAsciiDec at h
    obtain ⟨hin, h⟩ := withIn_done h
    have hle := State.length_inBytes_le hin
    exact bodyInv_outOrRaise hs.readIn hle
      (fun d hd => by have := length_of_asciiDec hd; omega) h
  | asciiFrame => exact bodyInv_framer hs framesBelow_asciiScan h
  | rtuEnc =>
    unfold bodyOf bodyRtuEnc at h
    obtain ⟨hin, h⟩ := withIn_done h
    have hle := State.length_inBytes_le hin
    exact bodyInv_outOrRaise (hs.readIn.noteTable _) hle
      (fun d hd => by rw [length_of_rtuEnc hd]; omega) h
  | rtuDec =>
    unfold bodyOf bodyRtuDec at h
    obtain ⟨hin, h⟩ := withIn_done h
    have hle := State.length_inBytes_le hin
    exact bodyInv_outOrRaise (hs.readIn.noteTable _) hle
      (fun d hd => by have := length_of_rtuDec hd; omega) h
  | rtuEst req =>
    unfold bodyOf bodyRtuEst at h
    obtain ⟨-, h⟩ := withIn_done h
    split at h
    · cases h; exact (hs.readIn.bodyInv.setEst (by decide)).setResult _
    · cases h; exact hs.readIn.bodyInv.setEst (by decide)
    · cases h; exact hs.readIn.bodyInv.setEst (by decide)
  | rtuFrame req => exact bodyInv_framer hs (framesBelow_rtuScan req) h
  | tcpEnc =>
    unfold bodyOf bodyTcpEnc at h
    obtain ⟨hin, h⟩ := withIn_done h
    have hle := State.length_inBytes_le hin
    exact bodyInv_outOrRaise hs.readIn hle
      (fun d hd => by rw [length_of_tcpEnc hd]; omega) h
  | tcpValid xseq xunit =>
    unfold bodyOf bodyTcpValid at h
    obtain ⟨-, h⟩ := withIn_done h
    split at h
    · cases h
    · cases h; exact hs.readIn.bodyInv.setResult _
  | tcpDec =>
    unfold bodyOf bodyTcpDec at h
    obtain ⟨hin, h⟩ := withIn_done h
    have hle := State.length_inBytes_le hin
    split at h
    · cases h
    · rename_i hdec
      cases h
      have hlen := length_of_tcpDec hdec
      exact (hs.readIn.setOut (Config.le_outCap hle (by omega))).setResult _
  | tcpFrame => exact bodyInv_framer hs framesBelow_tcpScan h
  | txnClear =>
    unfold bodyOf bodyTxnClear at h
    obtain ⟨-, h⟩ := withTxn_done h
    cases h
    exact hs.setTxn_reset.bodyInv
  | txnSetseq =>
    unfold bodyOf bodyTxnSetseq at h
    obtain ⟨-, h⟩ := withTxn_done h
    obtain ⟨-, h⟩ := withIn_done h
    cases h
    exact (hs.readIn.setTxn_seq _).bodyInv
  | txnSetreq p => exact bodyInv_txnSetreq hs h
  | txnGetreq p => exact bodyInv_txnGetreq hs h
  | txnSetrsp p => exact bodyInv_txnSetrsp hs h
  | txnGetrsp p => exact bodyInv_txnGetrsp hs h
  | txnNorsp p => exact bodyInv_txnNorsp hs h

/-! ### The events -/

/-- A command keeps the invariant if its body, when it completes, has established all of it but STATUS. A raise needs
nothing: it leaves the buffers and the record as they were and the result registers cleared (R355). -/
theorem inv_perform {s : State} (h : s.Inv) {b : Body} (hb : ∀ t, b s.clearOutputs = .done t → t.BodyInv) :
    (perform b s).Inv := by
  rcases perform_cases b s with ⟨t, ht, e⟩ | ⟨r, t, -, e⟩
  · rw [e]
    exact (hb t ht).post_ok
  · rw [e]
    exact ⟨h.ready.valid, h.ready.memory, State.outputInv_of_cleared rfl, .inr ⟨r, rfl, rfl⟩, h.ready.txn⟩

/-- The engine's turn keeps the invariant (R385). -/
theorem inv_engineTurn {s t : State} (h : s.Inv) (ht : engineTurn s = .next t) : t.Inv := by
  rcases engineTurn_cases ht with ⟨-, rfl⟩ | ⟨-, ⟨e, -, rfl⟩ | ⟨i, -, hi⟩⟩
  · exact h
  · exact inv_perform h fun t ht => nomatch ht
  · rw [exec_next hi]
    exact inv_perform h fun t ht => bodyInv_bodyOf h.ready ht

theorem State.answerByte_inBuf (s : State) (b : Option Byte) : (s.answerByte b).inBuf = s.inBuf := by cases b <;> rfl

theorem State.answerWord_inBuf (s : State) (v : Option Word) : (s.answerWord v).inBuf = s.inBuf := by cases v <;> rfl

theorem State.writeReg_inBuf (s : State) (r : Reg) (v : Word) : (s.writeReg r v).inBuf = s.inBuf := by cases r <;> rfl

/-- A host access writes one byte of IN_BUF, inside it, or none (R81 to R85). -/
theorem hostAccess_inBuf (x : Access) (s : State) :
    (hostAccess x s).inBuf = s.inBuf ∨ ∃ i b, i < s.cfg.bufCap ∧ (hostAccess x s).inBuf = s.inBuf.write i b := by
  cases x with
  | readByte a =>
    left
    unfold hostAccess hostReadByte
    dsimp only
    split
    exacts [s.answerByte_inBuf _, s.answerByte_inBuf _, rfl, rfl, rfl]
  | readWord a =>
    left
    unfold hostAccess hostReadWord
    dsimp only
    split
    exacts [rfl, s.answerWord_inBuf _, rfl, rfl, rfl]
  | writeByte a b =>
    unfold hostAccess hostWriteByte
    dsimp only
    split
    · split
      · exact .inl rfl
      · exact .inr ⟨_, b, lt_of_locate_inByte ‹_›, rfl⟩
    all_goals exact .inl rfl
  | writeWord a v =>
    left
    unfold hostAccess hostWriteWord
    dsimp only
    split
    · split
      · split
        exacts [rfl, s.writeReg_inBuf _ v]
      · rfl
    all_goals rfl

/-- What a host access leaves alone is all of the invariant but for IN_BUF. -/
theorem BusKept.inv {s t : State} (h : s.Inv) (k : BusKept s t) (hwf : t.inBuf.wf)
    (hcap : ∀ p ∈ t.inBuf, p.1 < s.cfg.bufCap) : t.Inv := by
  obtain ⟨hvalid, ⟨-, houtWf, hfdescWf, -, houtCap, hfdescCap⟩, houtputs, hstatus, htxn⟩ := h
  unfold State.Inv State.MemoryInv State.OutputInv State.StatusInv State.TxnInv
  rw [k.cfg, k.outs, k.outBuf, k.fdesc, k.status, k.txn]
  exact ⟨hvalid, ⟨hwf, houtWf, hfdescWf, hcap, houtCap, hfdescCap⟩, houtputs, hstatus, htxn⟩

/-- A host access keeps the invariant, whether it faults or not. -/
theorem inv_hostAccess {s : State} (h : s.Inv) (x : Access) : (hostAccess x s).Inv := by
  obtain ⟨hwf, -, -, hcap, -, -⟩ := h.ready.memory
  have hkept := busKept_hostAccess x s
  rcases hostAccess_inBuf x s with e | ⟨i, b, hi, e⟩
  · exact hkept.inv h (e ▸ hwf) (e ▸ hcap)
  · refine hkept.inv h (e ▸ Memory.wf_write hwf i b) (fun p hp => ?_)
    rw [e] at hp
    rcases Memory.mem_write hp with rfl | hp
    · exact hi
    · exact hcap p hp

/-- The reset event leads to a state that meets the invariant from every legal configuration (R380). -/
theorem inv_resetBlock {s : State} (h : s.cfg.Valid) : s.resetBlock.Inv :=
  ⟨h, ⟨.nil, .nil, .nil, fun _ hp => (nomatch hp), fun _ hp => (nomatch hp), fun _ hp => (nomatch hp)⟩,
    State.outputInv_of_cleared rfl, .inl ⟨rfl, rfl⟩, And.intro ⟨rfl, rfl, rfl, rfl⟩ ⟨rfl, rfl, rfl⟩⟩

theorem State.Inv.popEvent {s : State} (h : s.Inv) (rest : List Event) : (s.popEvent rest).Inv := h

end Sys2Proof.Machine

namespace Sys2Proof.Claims

open Sys2Proof.Machine

/-- Settles O17: a host access, a reset and the engine's turn each keep the invariant. -/
theorem stepKeepsInvariant : Obligations.StepKeepsInvariant := by
  unfold Obligations.StepKeepsInvariant
  intro s t hs h
  rcases step_cases h with ⟨x, rest, -, rfl⟩ | ⟨rest, -, rfl⟩ | ⟨rest, -, ht⟩
  · exact inv_hostAccess (hs.popEvent rest) x
  · exact inv_resetBlock hs.1
  · exact inv_engineTurn (hs.popEvent rest) ht

end Sys2Proof.Claims

/-! # The rules of 10_state: what commands and steps keep, the table flag, and the registers the host reads -/

namespace Sys2Proof.Machine

/-! ### STATUS after a command, and what the engine's turn keeps (O7, O9) -/

/-- STATUS after a completed command (R351, R352). -/
theorem Status.ok_mem_statusPairs : (Status.ok.err, Status.ok.reason) ∈ Claims.statusPairs := by decide

/-- STATUS after any raise: each reason has its one kind (R352). -/
theorem Status.failed_mem_statusPairs (r : Reason) :
    ((Status.failed r).err, (Status.failed r).reason) ∈ Claims.statusPairs := by cases r <;> decide

/-- Whatever a body does, `perform` posts a legal pair (R355). -/
theorem perform_status_mem (b : Body) (s : State) :
    ((perform b s).status.err, (perform b s).status.reason) ∈ Claims.statusPairs := by
  rcases perform_cases b s with ⟨t, -, e⟩ | ⟨r, t, -, e⟩ <;> rw [e]
  · exact Status.ok_mem_statusPairs
  · exact Status.failed_mem_statusPairs r

/-- The engine's turn, idle or not, leaves the host agent alone and never loses the table (R47, R388). -/
theorem engineTurn_keeps {s t : State} (h : engineTurn s = .next t) :
    t.host = s.host ∧ (s.tblBuilt = true → t.tblBuilt = true) := by
  have hperform {b : Body} (hb : b.Keeps) :
      (perform b s).host = s.host ∧ (s.tblBuilt = true → (perform b s).tblBuilt = true) := by
    obtain ⟨-, -, -, -, hhost, htable⟩ := perform_keeps hb s
    exact ⟨hhost, htable⟩
  rcases engineTurn_cases h with ⟨-, rfl⟩ | ⟨-, ⟨e, -, rfl⟩ | ⟨i, -, hi⟩⟩
  · exact ⟨rfl, id⟩
  · exact hperform (keeps_raiseBody _)
  · rw [exec_next hi]
    exact hperform (keeps_bodyOf i)

/-- Replies that only grow lose no recorded host fault (R357). -/
theorem State.hostFaults_subset {s t : State} (h : s.host.replies <+: t.host.replies) :
    s.hostFaults ⊆ t.hostFaults := (h.filterMap _).subset

/-- A step only adds replies, a reset included (R357). -/
theorem replies_grow_of_step {s t : State} (h : step s = .next t) : s.host.replies <+: t.host.replies := by
  rcases step_cases h with ⟨x, rest, -, rfl⟩ | ⟨rest, -, rfl⟩ | ⟨rest, -, ht⟩
  · exact (busKept_hostAccess x (s.popEvent rest)).replies
  · exact List.prefix_rfl
  · rw [(engineTurn_keeps ht).1]
    exact List.prefix_rfl

/-- A step that is no reset never loses the table (R47). -/
theorem tblBuilt_of_step {s t : State} (h : step s = .next t) (hr : s.host.events.head? ≠ some .reset)
    (hb : s.tblBuilt = true) : t.tblBuilt = true := by
  rcases step_cases h with ⟨x, rest, -, rfl⟩ | ⟨rest, he, -⟩ | ⟨rest, -, ht⟩
  · exact (busKept_hostAccess x (s.popEvent rest)).tblBuilt.trans hb
  · rw [he] at hr
    exact absurd rfl hr
  · exact (engineTurn_keeps ht).2 hb

/-! ### The table flag of a command that succeeds (O60)

A codec notes the table by the length of its input, before it is known whether it succeeds. It succeeds only where it did
compute a CRC, so on success the note says which protocol was used. -/

/-- An RTU frame that was encoded has a CRC (R221). -/
theorem rtuEncBuilds_of_ok {s d : List Byte} (h : rtuEnc s = .ok d) : rtuEncBuilds s = true := by
  refine decide_eq_true (Nat.le_of_not_lt fun hshort => ?_)
  unfold rtuEnc at h
  rw [crc16_short crcSeed hshort] at h
  cases h

/-- An RTU frame that was decoded had a CRC (R223). -/
theorem rtuDecBuilds_of_ok {f d : List Byte} (h : rtuDec f = .ok d) : rtuDecBuilds f = true := by
  refine decide_eq_true (Nat.le_of_not_lt fun hshort => ?_)
  unfold rtuDec at h
  rw [if_pos hshort] at h
  cases h

/-- A frame that was encoded used the table exactly if the protocol is RTU (R47, R303). -/
theorem encBuilds_of_ok {q : Byte × Byte} {p : Protocol} {s d : List Byte} (h : encP q p s = .ok d) :
    encBuilds p s = Claims.isRtu p := by
  cases p with
  | ascii => rfl
  | rtu => exact rtuEncBuilds_of_ok h
  | tcp => rfl

/-- A frame that was decoded used the table exactly if the protocol is RTU (R47, R303). -/
theorem decBuilds_of_ok {lower : Bool} {p : Protocol} {f d : List Byte} {id : Option (Byte × Byte)}
    (h : decP lower p f = .ok (id, d)) : decBuilds p f = Claims.isRtu p := by
  cases p with
  | ascii => rfl
  | rtu =>
    unfold decP at h
    dsimp only at h
    split at h
    · cases h
    · exact rtuDecBuilds_of_ok ‹_›
  | tcp => rfl

/-- PROTO = 1 is RTU and nothing else is (R113). -/
theorem isRtu_of_protocolOf {q : BitVec 2} {p : Protocol} (h : protocolOf q = some p) : Claims.isRtu p = (q == 1) := by
  revert p q
  decide

/-- A body that completes sets the table flag if `u`, and otherwise leaves it as it was. -/
def Body.Builds (b : Body) (u : Bool) : Prop := ∀ s t, b s = .done t → t.tblBuilt = (s.tblBuilt || u)

theorem builds_withBound {b : Body} {u : Bool} (h : b.Builds u) : Body.Builds (withBound b) u :=
  fun s t ht => h s t (withBound_done ht).2

theorem builds_withIn {b : List Byte → Body} {u : Bool} (h : ∀ f, (b f).Builds u) : Body.Builds (withIn b) u :=
  fun s t ht => h s.inBytes s.readIn t (withIn_done ht).2

theorem builds_withTxn {b : Body} {u : Bool} (h : b.Builds u) : Body.Builds (withTxn b) u :=
  fun s t ht => h s t (withTxn_done ht).2

theorem builds_withProto {q : BitVec 2} {acc : List TxnState} {b : Protocol → Body} {u : Bool}
    (h : ∀ p, protocolOf q = some p → (b p).Builds u) : Body.Builds (withProto q acc b) u := by
  intro s t ht
  obtain ⟨-, p, hp, ht⟩ := withProto_done ht
  exact h p hp s t ht

/-- A command whose protocol decides whether it uses the table (R47). -/
theorem builds_withProto_isRtu {q : BitVec 2} {acc : List TxnState} {b : Protocol → Body}
    (h : ∀ p, (b p).Builds (Claims.isRtu p)) : Body.Builds (withProto q acc b) (q == 1) :=
  builds_withProto fun p hp => isRtu_of_protocolOf hp ▸ h p

theorem builds_outOrRaise (r : Except Reason (List Byte)) : Body.Builds (outOrRaise r) false := by
  intro s t ht
  obtain ⟨d, -, rfl⟩ := outOrRaise_done ht
  simp

/-- A codec that notes the table before its outcome is known: `u` is what it noted where it succeeds. -/
theorem tblBuilt_of_noted_outOrRaise {r : Except Reason (List Byte)} {s t : State} {noted u : Bool}
    (hu : ∀ d, r = .ok d → noted = u) (h : outOrRaise r (s.noteTable noted) = .done t) :
    t.tblBuilt = (s.tblBuilt || u) := by
  obtain ⟨d, hd, rfl⟩ := outOrRaise_done h
  rw [State.setOut_tblBuilt, State.noteTable_tblBuilt, hu d hd]

/-- A framer (R190, R232, R275). -/
theorem builds_framer (scan : List Byte → Scan) :
    Body.Builds (withIn (fun b s => .done (s.setFrames s.opnd.inOfs.toNat b (scan b)))) false :=
  builds_withIn fun f s t h => by cases h; simp

theorem builds_renderAdu (p : Protocol) (adu : List Byte) : Body.Builds (renderAdu p adu) (Claims.isRtu p) :=
  fun _ _ h => tblBuilt_of_noted_outOrRaise (fun _ hd => encBuilds_of_ok hd) h

theorem builds_storeRequest (p : Protocol) (f : List Byte) : Body.Builds (storeRequest p f) (Claims.isRtu p) := by
  intro s t h
  unfold storeRequest at h
  split at h
  · cases h
  · rename_i hdec
    dsimp only at h
    split at h
    · cases h
    · cases h
      simp [decBuilds_of_ok hdec]

theorem builds_storeResponse (p : Protocol) (d : List Byte) : Body.Builds (storeResponse p d) false := by
  intro s t h
  unfold storeResponse at h
  dsimp only at h
  split at h
  · cases h
  · cases h
    simp

theorem builds_setrspTcp (f : List Byte) : Body.Builds (setrspTcp f) false := by
  intro s t h
  unfold setrspTcp at h
  split at h
  · cases h
  · exact builds_storeResponse _ _ s.readIn t h

theorem builds_setrspSerial (p : Protocol) (f : List Byte) : Body.Builds (setrspSerial p f) (Claims.isRtu p) := by
  intro s t h
  unfold setrspSerial at h
  split at h
  · cases h
  · rename_i hdec
    dsimp only at h
    split at h
    · cases h
    · have hstore := builds_storeResponse _ _ _ t h
      simpa [decBuilds_of_ok hdec] using hstore

/-- The table flag after a completed body is as R47 says. -/
theorem builds_bodyOf (i : Instr) : (bodyOf i).Builds (Claims.usesCrc i) := by
  cases i with
  | lrc =>
    unfold bodyOf bodyLrc
    refine builds_withIn fun f s t h => ?_
    split at h <;> cases h
    simp [Claims.usesCrc]
  | crc16 =>
    unfold bodyOf bodyCrc16
    refine builds_withIn fun f s t h => ?_
    split at h <;> cases h
    simp [Claims.usesCrc]
  | crctab => intro s t h; cases h; rfl
  | asciiEnc => exact builds_withIn fun f => builds_outOrRaise _
  | asciiDec =>
    unfold bodyOf bodyAsciiDec
    exact builds_withIn fun f s => builds_outOrRaise _ s
  | asciiFrame => exact builds_framer _
  | rtuEnc =>
    unfold bodyOf bodyRtuEnc
    exact builds_withIn fun f s t h => tblBuilt_of_noted_outOrRaise (fun _ hd => rtuEncBuilds_of_ok hd) h
  | rtuDec =>
    unfold bodyOf bodyRtuDec
    exact builds_withIn fun f s t h => tblBuilt_of_noted_outOrRaise (fun _ hd => rtuDecBuilds_of_ok hd) h
  | rtuEst req =>
    unfold bodyOf bodyRtuEst
    refine builds_withIn fun f s t h => ?_
    split at h <;> cases h <;> simp [Claims.usesCrc]
  | rtuFrame req => exact builds_framer _
  | tcpEnc =>
    unfold bodyOf bodyTcpEnc
    exact builds_withIn fun f s => builds_outOrRaise _ s
  | tcpValid xseq xunit =>
    unfold bodyOf bodyTcpValid
    refine builds_withIn fun f s t h => ?_
    split at h <;> cases h
    simp [Claims.usesCrc]
  | tcpDec =>
    unfold bodyOf bodyTcpDec
    refine builds_withIn fun f s t h => ?_
    split at h <;> cases h
    simp [Claims.usesCrc]
  | tcpFrame => exact builds_framer _
  | txnClear =>
    unfold bodyOf bodyTxnClear
    exact builds_withTxn fun s t h => by cases h; simp [Claims.usesCrc]
  | txnSetseq =>
    unfold bodyOf bodyTxnSetseq
    exact builds_withTxn (builds_withIn fun f s t h => by cases h; simp [Claims.usesCrc])
  | txnSetreq q =>
    unfold bodyOf bodyTxnSetreq
    exact builds_withTxn (builds_withBound (builds_withProto_isRtu fun p s => builds_storeRequest p _ s.readIn))
  | txnGetreq q =>
    unfold bodyOf bodyTxnGetreq
    exact builds_withTxn (builds_withProto_isRtu fun p s => builds_renderAdu p _ s)
  | txnSetrsp q =>
    unfold bodyOf bodyTxnSetrsp
    refine builds_withTxn (builds_withBound (builds_withProto_isRtu fun p s => ?_))
    cases p with
    | ascii => exact builds_setrspSerial .ascii _ s.readIn
    | rtu => exact builds_setrspSerial .rtu _ s.readIn
    | tcp => exact builds_setrspTcp _ s.readIn
  | txnGetrsp q =>
    unfold bodyOf bodyTxnGetrsp
    exact builds_withTxn (builds_withProto_isRtu fun p s => builds_renderAdu p _ s)
  | txnNorsp q =>
    unfold bodyOf bodyTxnNorsp
    refine builds_withTxn (builds_withProto fun p _ s t h => ?_)
    cases p with
    | ascii => cases h; simp [Claims.usesCrc]
    | rtu => cases h; simp [Claims.usesCrc]
    | tcp => exact (builds_outOrRaise _ _ t h :)

/-! ### No command reads STATUS (O15)

`perform` clears the result registers before the body runs, so what is left to show is that a body passes STATUS through. -/

/-- Replaces ERR and REASON (R33). -/
def State.setStatus (st : Status) (s : State) : State := { s with status := st }

@[simp] theorem State.setStatus_cfg (st : Status) (s : State) : (s.setStatus st).cfg = s.cfg := rfl
@[simp] theorem State.setStatus_opnd (st : Status) (s : State) : (s.setStatus st).opnd = s.opnd := rfl
@[simp] theorem State.setStatus_txn (st : Status) (s : State) : (s.setStatus st).txn = s.txn := rfl
@[simp] theorem State.seqPair_setStatus (st : Status) (s : State) : (s.setStatus st).seqPair = s.seqPair := rfl
@[simp] theorem State.xunit_setStatus (st : Status) (s : State) : (s.setStatus st).xunit = s.xunit := rfl

/-- Applies an update to the state a body's result carries. -/
def BodyResult.map (g : State → State) : BodyResult → BodyResult
  | .done s => .done (g s)
  | .raise r s => .raise r (g s)

/-- A body does the same whatever STATUS holds, and passes it through (R53). -/
def Body.IgnoresStatus (b : Body) : Prop := ∀ st s, b (s.setStatus st) = (b s).map (State.setStatus st)

theorem ignoresStatus_withBound {b : Body} (h : b.IgnoresStatus) : Body.IgnoresStatus (withBound b) := by
  intro st s
  cases hin : s.inBound with
  | true => rw [withBound_in hin, withBound_in (s := s.setStatus st) hin, h st s]
  | false => rw [withBound_out hin, withBound_out (s := s.setStatus st) hin]; rfl

theorem ignoresStatus_withIn {b : List Byte → Body} (h : ∀ f, (b f).IgnoresStatus) : Body.IgnoresStatus (withIn b) :=
  ignoresStatus_withBound fun st s => h s.inBytes st s.readIn

theorem ignoresStatus_withTxn {b : Body} (h : b.IgnoresStatus) : Body.IgnoresStatus (withTxn b) := by
  intro st s
  cases htxn : s.cfg.hasTxn with
  | true => rw [withTxn_has htxn, withTxn_has (s := s.setStatus st) htxn, h st s]
  | false => rw [withTxn_none htxn, withTxn_none (s := s.setStatus st) htxn]; rfl

theorem ignoresStatus_withProto (q : BitVec 2) (acc : List TxnState) {b : Protocol → Body}
    (h : ∀ p, (b p).IgnoresStatus) : Body.IgnoresStatus (withProto q acc b) := by
  intro st s
  unfold withProto
  cases protocolOf q with
  | none => rfl
  | some p =>
    rw [State.setStatus_txn]
    dsimp only
    split_ifs
    · exact h p st s
    · rfl

theorem ignoresStatus_outOrRaise (r : Except Reason (List Byte)) : Body.IgnoresStatus (outOrRaise r) := by
  intro st s
  cases r <;> rfl

theorem ignoresStatus_storeRequest (p : Protocol) (f : List Byte) : Body.IgnoresStatus (storeRequest p f) := by
  intro st s
  unfold storeRequest
  rw [State.setStatus_cfg]
  cases decP s.cfg.asciiLower p f with
  | error e => rfl
  | ok r =>
    dsimp only
    split_ifs <;> rfl

theorem ignoresStatus_renderAdu (p : Protocol) (adu : List Byte) : Body.IgnoresStatus (renderAdu p adu) :=
  fun st s => ignoresStatus_outOrRaise _ st (s.noteTable _)

theorem ignoresStatus_storeResponse (p : Protocol) (d : List Byte) : Body.IgnoresStatus (storeResponse p d) := by
  intro st s
  unfold storeResponse
  dsimp only
  split_ifs <;> rfl

theorem ignoresStatus_setrspTcp (f : List Byte) : Body.IgnoresStatus (setrspTcp f) := by
  intro st s
  unfold setrspTcp
  rw [State.setStatus_cfg, State.setStatus_txn]
  cases tcpValid f (if s.cfg.rspCheckSeq then some s.txn.seq else none) (some s.txn.unit) with
  | error e => rfl
  | ok u => exact ignoresStatus_storeResponse _ _ st s.readIn

theorem ignoresStatus_setrspSerial (p : Protocol) (f : List Byte) : Body.IgnoresStatus (setrspSerial p f) := by
  intro st s
  unfold setrspSerial
  rw [State.setStatus_cfg]
  cases decP s.cfg.asciiLower p f with
  | error e => rfl
  | ok r =>
    dsimp only
    rw [State.noteTable_txn, State.noteTable_txn, State.setStatus_txn]
    split_ifs
    · rfl
    · exact ignoresStatus_storeResponse _ _ st (s.noteTable _)

/-- A framer (R190, R232, R275). -/
theorem ignoresStatus_framer (scan : List Byte → Scan) :
    Body.IgnoresStatus (withIn (fun b s => .done (s.setFrames s.opnd.inOfs.toNat b (scan b)))) :=
  ignoresStatus_withIn fun _ _ _ => rfl

/-- No command's body reads STATUS (R53). -/
theorem ignoresStatus_bodyOf (i : Instr) : (bodyOf i).IgnoresStatus := by
  cases i with
  | lrc =>
    unfold bodyOf bodyLrc
    refine ignoresStatus_withIn fun f st s => ?_
    cases lrc f <;> rfl
  | crc16 =>
    unfold bodyOf bodyCrc16
    refine ignoresStatus_withIn fun f st s => ?_
    rw [State.setStatus_opnd]
    cases crc16 f s.opnd.seed <;> rfl
  | crctab => exact fun st s => rfl
  | asciiEnc => exact ignoresStatus_withIn fun f => ignoresStatus_outOrRaise _
  | asciiDec =>
    unfold bodyOf bodyAsciiDec
    exact ignoresStatus_withIn fun f st s => ignoresStatus_outOrRaise _ st s
  | asciiFrame => exact ignoresStatus_framer _
  | rtuEnc =>
    unfold bodyOf bodyRtuEnc
    exact ignoresStatus_withIn fun f st s => ignoresStatus_outOrRaise _ st (s.noteTable _)
  | rtuDec =>
    unfold bodyOf bodyRtuDec
    exact ignoresStatus_withIn fun f st s => ignoresStatus_outOrRaise _ st (s.noteTable _)
  | rtuEst req =>
    unfold bodyOf bodyRtuEst
    refine ignoresStatus_withIn fun f st s => ?_
    cases estimate req f <;> rfl
  | rtuFrame req => exact ignoresStatus_framer _
  | tcpEnc =>
    unfold bodyOf bodyTcpEnc
    exact ignoresStatus_withIn fun f st s => ignoresStatus_outOrRaise _ st s
  | tcpValid xseq xunit =>
    unfold bodyOf bodyTcpValid
    refine ignoresStatus_withIn fun f st s => ?_
    rw [State.seqPair_setStatus, State.xunit_setStatus]
    cases tcpValid f (if xseq then some s.seqPair else none) (if xunit then some s.xunit else none) <;> rfl
  | tcpDec =>
    unfold bodyOf bodyTcpDec
    refine ignoresStatus_withIn fun f st s => ?_
    cases tcpDec f <;> rfl
  | tcpFrame => exact ignoresStatus_framer _
  | txnClear => exact ignoresStatus_withTxn fun st s => rfl
  | txnSetseq =>
    unfold bodyOf bodyTxnSetseq
    exact ignoresStatus_withTxn (ignoresStatus_withIn fun f st s => rfl)
  | txnSetreq q =>
    unfold bodyOf bodyTxnSetreq
    exact ignoresStatus_withTxn (ignoresStatus_withBound (ignoresStatus_withProto _ _ fun p st s =>
      ignoresStatus_storeRequest p s.inBytes st s.readIn))
  | txnGetreq q =>
    unfold bodyOf bodyTxnGetreq
    exact ignoresStatus_withTxn (ignoresStatus_withProto _ _ fun p st s => ignoresStatus_renderAdu p s.txn.reqAdu st s)
  | txnSetrsp q =>
    unfold bodyOf bodyTxnSetrsp
    refine ignoresStatus_withTxn (ignoresStatus_withBound (ignoresStatus_withProto _ _ fun p st s => ?_))
    cases p with
    | ascii => exact ignoresStatus_setrspSerial .ascii s.inBytes st s.readIn
    | rtu => exact ignoresStatus_setrspSerial .rtu s.inBytes st s.readIn
    | tcp => exact ignoresStatus_setrspTcp s.inBytes st s.readIn
  | txnGetrsp q =>
    unfold bodyOf bodyTxnGetrsp
    exact ignoresStatus_withTxn (ignoresStatus_withProto _ _ fun p st s => ignoresStatus_renderAdu p s.txn.rspAdu st s)
  | txnNorsp q =>
    unfold bodyOf bodyTxnNorsp
    refine ignoresStatus_withTxn (ignoresStatus_withProto _ _ fun p st s => ?_)
    cases p with
    | ascii => rfl
    | rtu => rfl
    | tcp => exact ignoresStatus_outOrRaise _ st ((s.setTxn _).tick 1)

/-- The prologue and the epilogue overwrite all that an earlier command posted (R355). -/
theorem perform_ignores_outcome {b : Body} (h : b.IgnoresStatus) (s : State) (o : OutputRegs) (st : Status) :
    perform b { s with outs := o, status := st } = perform b s := by
  have hbody := h st s.clearOutputs
  cases hb : b s.clearOutputs <;> rw [hb] at hbody
  · rw [perform_done hb, perform_done hbody]; rfl
  · rw [perform_raise hb, perform_raise hbody]; rfl

/-! ### The registers (O22 to O25) -/

/-- The addresses of the 16 registers (R80). -/
theorem locate_reg {c : Config} {n : Nat} {r : Reg} (hn : n < 16) (h : regAt c.hasTxn n = some r) :
    locate c (BitVec.ofNat 20 (4 * n)) = some (.reg r) := by
  unfold locate
  rw [addr_toNat (by omega)]
  dsimp only
  rw [if_pos (by omega), if_pos (by omega), Nat.mul_div_cancel_left n (by decide), h]
  rfl

/-- A register is read at its address, whatever BUSY is (R81, R387). -/
theorem readReg_at {s : State} (n : Fin 16) {r : Reg} (h : regAt s.cfg.hasTxn n = some r) :
    hostAccess (.readWord (BitVec.ofNat 20 (4 * n))) s = Claims.replied s (.word (s.readReg r)) :=
  hostAccess_readReg (locate_reg n.isLt h)

/-- A read-write register is written at its address while BUSY = 0 (R81). -/
theorem writeReg_at {s : State} (n : Fin 16) {r : Reg} (v : Word) (h : regAt s.cfg.hasTxn n = some r)
    (hr : r.writable = true) (hp : s.pending = false) :
    hostAccess (.writeWord (BitVec.ofNat 20 (4 * n)) v) s = (s.writeReg r v).answer .written :=
  hostAccess_writeReg v (locate_reg n.isLt h) hr hp

/-- Fields that lie side by side add up. -/
theorem toNat_append_add {m n : Nat} (x : BitVec m) (y : BitVec n) :
    (x ++ y).toNat = 2 ^ n * x.toNat + y.toNat := by
  rw [BitVec.toNat_append, ← Nat.shiftLeft_add_eq_or_of_lt y.isLt, Nat.shiftLeft_eq, Nat.mul_comm]

/-- STATUS, field by field (R33). -/
theorem toNat_statusWord (s : State) : (statusWord s).toNat =
    s.status.err.toNat + 2 ^ 8 * s.status.reason.toNat + 2 ^ 16 * s.tblBuilt.toNat + 2 ^ 31 * s.pending.toNat := by
  unfold statusWord
  simp only [toNat_append_add, BitVec.toNat_ofBool, BitVec.toNat_ofNat]
  omega

/-- FLAGS, field by field (R40). -/
theorem toNat_flagsWord (f : Flags) : (flagsWord f).toNat =
    f.remValid.toNat + 2 * f.none.toNat + 4 * f.drop.toNat + 16 * f.est.toNat := by
  unfold flagsWord
  simp only [toNat_append_add, BitVec.toNat_ofBool, BitVec.toNat_ofNat]
  omega

/-- CAPS, field by field (R46). -/
theorem toNat_capsWord {c : Config} (hc : c.Valid) : (capsWord c).toNat =
    c.bufCap + 2 ^ 16 * c.hasTxn.toNat + 2 ^ 17 * c.asciiLower.toNat + 2 ^ 18 * c.rspCheckSeq.toNat + 2 ^ 20 := by
  obtain ⟨-, hmax⟩ := hc
  unfold capsWord
  simp only [toNat_append_add, BitVec.toNat_ofBool, BitVec.toNat_ofNat]
  omega

/-- TXN_INFO, field by field (R43). -/
theorem toNat_txnInfoWord (t : TxnRecord) : (txnInfoWord t).toNat =
    t.state.code.toNat + 4 * t.reqProtoCode.toNat + 16 * t.rspProtoCode.toNat + 2 ^ 8 * t.unit.toNat +
      2 ^ 16 * t.seq.2.toNat + 2 ^ 24 * t.seq.1.toNat := by
  unfold txnInfoWord
  simp only [toNat_append_add, BitVec.toNat_ofNat]
  omega

/-- TXN_LEN, field by field (R45). -/
theorem toNat_txnLenWord {t : TxnRecord} (hreq : t.reqAdu.length < 2 ^ 16) (hrsp : t.rspAdu.length < 2 ^ 16) :
    (txnLenWord t).toNat = t.reqAdu.length + 2 ^ 16 * t.rspAdu.length := by
  unfold txnLenWord
  rw [toNat_append_add, half_toNat hreq, half_toNat hrsp, Nat.add_comm]

/-- TXN_INFO shows a protocol by its PROTO code (R43, R113). -/
theorem Protocol.code_eq_tag (p : Protocol) : p.code = Claims.tag p := by cases p <;> rfl

end Sys2Proof.Machine

namespace Sys2Proof.Claims

open Sys2Proof.Machine

/-- Settles O7: every command is one `perform` of its body, which posts a legal pair and keeps the operands. -/
theorem everyCommandEndsAndKeepsOperands : Obligations.EveryCommandEndsAndKeepsOperands := by
  unfold Obligations.EveryCommandEndsAndKeepsOperands
  intro i s
  obtain ⟨hcfg, hcmd, hopnd, hinBuf, hhost, -⟩ := perform_keeps (keeps_bodyOf i) s
  exact ⟨_, exec_eq i s, perform_pending _ s, perform_status_mem _ s, hcfg, hcmd, hopnd, hhost, fun k => by rw [hinBuf]⟩

/-- Settles O9: the replies only grow, and only a reset clears the table flag. -/
theorem tableFlagAndHostFaultsAreKept : Obligations.TableFlagAndHostFaultsAreKept := by
  unfold Obligations.TableFlagAndHostFaultsAreKept
  intro s t h
  have hreplies := replies_grow_of_step h
  exact ⟨fun hb hr => tblBuilt_of_step h hr hb, hreplies, fun f hf => State.hostFaults_subset hreplies hf⟩

/-- Settles O60: a command with ERR = 0 has completed, and its body says which table flag it leaves. -/
theorem successSetsTheTableFlag : Obligations.SuccessSetsTheTableFlag := by
  unfold Obligations.SuccessSetsTheTableFlag
  intro i s t h herr
  rcases exec_cases h with ⟨u, hdone, rfl, -⟩ | ⟨r, u, -, hne, -⟩
  · exact builds_bodyOf i s.clearOutputs u hdone
  · exact absurd herr hne

/-- Settles O15: the prologue clears the result registers, and no body reads STATUS. -/
theorem earlierOutcomeChangesNothing : Obligations.EarlierOutcomeChangesNothing := by
  unfold Obligations.EarlierOutcomeChangesNothing
  intro i s o st
  rw [exec_eq, exec_eq, perform_ignores_outcome (ignoresStatus_bodyOf i)]

/-- Settles O22: the five operand registers lie at words 2 to 5 and 15 of the register region. -/
theorem operandRegisterAccess : Obligations.OperandRegisterAccess := by
  unfold Obligations.OperandRegisterAccess
  intro s v
  simp only [BitVec.ofNat_toNat]
  exact ⟨fun hp => ⟨writeReg_at 2 v rfl rfl hp, writeReg_at 3 v rfl rfl hp, writeReg_at 4 v rfl rfl hp,
    writeReg_at 5 v rfl rfl hp, writeReg_at 15 v rfl rfl hp⟩,
    readReg_at 2 rfl, readReg_at 3 rfl, readReg_at 4 rfl, readReg_at 5 rfl, readReg_at 15 rfl⟩

/-- Settles O23: CMD, STATUS and the result registers lie at words 0, 1 and 6 to 11 of the register region. -/
theorem statusAndResultReads : Obligations.StatusAndResultReads := by
  unfold Obligations.StatusAndResultReads
  intro s
  simp only [BitVec.ofNat_toNat]
  exact ⟨statusWord s, flagsWord s.outs.flags, readReg_at 0 rfl, readReg_at 1 rfl, toNat_statusWord s, readReg_at 6 rfl,
    readReg_at 7 rfl, readReg_at 8 rfl, toNat_flagsWord _, readReg_at 9 rfl, readReg_at 10 rfl, readReg_at 11 rfl⟩

/-- Settles O24: CAPS lies at word 14 of the register region; BUF_CAP fits its 16 bits (R6). -/
theorem capsShowsParameters : Obligations.CapsShowsParameters := by
  unfold Obligations.CapsShowsParameters
  exact fun s hc => ⟨capsWord s.cfg, readReg_at 14 rfl, toNat_capsWord hc⟩

/-- Settles O25: the record's registers lie at words 12 and 13 of the register region of a block that has the TXN unit. -/
theorem recordReads : Obligations.RecordReads := by
  unfold Obligations.RecordReads
  intro s htxn hreq hrsp
  refine ⟨txnInfoWord s.txn, txnLenWord s.txn, readReg_at 12 (by rw [htxn]; rfl), ?_, readReg_at 13 (by rw [htxn]; rfl),
    toNat_txnLenWord hreq hrsp⟩
  rw [toNat_txnInfoWord]
  unfold TxnRecord.reqProtoCode TxnRecord.rspProtoCode
  rw [Protocol.code_eq_tag, Protocol.code_eq_tag]
  cases s.txn.state <;> rfl

end Sys2Proof.Claims

/-! # The rules of 20_memory: the address map, what each access does, which accesses fault, and the order of events -/

namespace Sys2Proof.Machine

/-! ### The map, said once (R80) -/

/-- What lies where: the registers by word number, the buffers by index from their region's first address (R80). -/
def Loc.LiesAt (c : Config) (n : Nat) : Loc → Prop
  | .reg r => n < 0x40 ∧ n % 4 = 0 ∧ regAt c.hasTxn (n / 4) = some r
  | .inByte i => i < c.bufCap ∧ n = 0x10000 + i
  | .outByte i => i < c.outCap ∧ n = 0x20000 + i
  | .desc k => k < c.bufCap ∧ n = 0x40000 + 4 * k

theorem liesAt_of_locate {c : Config} {a : Addr} {l : Loc} (h : locate c a = some l) : l.LiesAt c a.toNat := by
  unfold locate at h
  dsimp only at h
  split_ifs at h with hreg hword
  · obtain ⟨r, hr, rfl⟩ := Option.map_eq_some_iff.1 h
    exact ⟨hreg, hword, hr⟩
  all_goals
    cases h
    constructor <;> omega

/-- The address of a descriptor (R85). -/
theorem locate_desc_aligned {c : Config} (hc : c.Valid) {k : Nat} (hk : k < c.bufCap) :
    locate c (BitVec.ofNat 20 (0x40000 + 4 * k)) = some (.desc k) := by
  rw [locate_desc hc (by omega), if_pos (Nat.mul_mod_right 4 k), Nat.mul_div_cancel_left k (by decide)]

theorem locate_of_liesAt {c : Config} (hc : c.Valid) {a : Addr} {l : Loc} (h : l.LiesAt c a.toNat) :
    locate c a = some l := by
  have ha : BitVec.ofNat 20 a.toNat = a := by simp
  rw [← ha]
  generalize a.toNat = n at h
  cases l with
  | reg r =>
    obtain ⟨hreg, hword, hr⟩ := h
    obtain ⟨k, rfl⟩ := Nat.dvd_of_mod_eq_zero hword
    rw [Nat.mul_div_cancel_left k (by decide)] at hr
    exact locate_reg (by omega) hr
  | inByte i =>
    obtain ⟨hi, rfl⟩ := h
    exact locate_inByte hc hi
  | outByte i =>
    obtain ⟨hi, rfl⟩ := h
    exact locate_outByte hc hi
  | desc k =>
    obtain ⟨hk, rfl⟩ := h
    exact locate_desc_aligned hc hk

/-- Where the regions do not overlap (R6), an address holds a location exactly where the map puts it. -/
theorem locate_eq_some_iff {c : Config} (hc : c.Valid) {a : Addr} {l : Loc} :
    locate c a = some l ↔ l.LiesAt c a.toNat := ⟨liesAt_of_locate, locate_of_liesAt hc⟩

/-- A block without the TXN unit lacks the registers at 0x30 and 0x34, and no other (R44). -/
theorem exists_regAt_iff (hasTxn : Bool) {n : Nat} (hn : n < 16) :
    (∃ r, regAt hasTxn n = some r) ↔ hasTxn = true ∨ (n ≠ 12 ∧ n ≠ 13) := by
  rw [← Option.isSome_iff_exists]
  cases hasTxn <;> interval_cases n <;> decide

/-- CMD and the operand registers are the writable ones (R81). -/
theorem exists_regAt_writable_iff (hasTxn : Bool) {n : Nat} (hn : n < 16) :
    (∃ r, regAt hasTxn n = some r ∧ r.writable = true) ↔ n ∈ [0, 2, 3, 4, 5, 15] := by
  rw [← Option.any_eq_true]
  cases hasTxn <;> interval_cases n <;> decide

/-! ### Which accesses are served (R81 to R85) -/

/-- The directions and widths of the accesses a location admits (R81, R82, R83, R85). -/
def Loc.serves : Loc → Dir → Width → Bool
  | .reg _, .read, .word => true
  | .reg r, .write, .word => r.writable
  | .inByte _, _, .byte => true
  | .outByte _, .read, .byte => true
  | .desc _, .read, .word => true
  | .reg _, _, .byte | .inByte _, _, .word | .outByte _, _, .word | .outByte _, .write, .byte => false
  | .desc _, _, .byte | .desc _, .write, .word => false

/-- A location lies at the address that admits accesses of this direction and width. -/
def Served (c : Config) (a : Addr) (d : Dir) (w : Width) : Prop := ∃ l, locate c a = some l ∧ l.serves d w = true

theorem served_iff_of_locate {c : Config} {a : Addr} {l : Loc} (hl : locate c a = some l) (d : Dir) (w : Width) :
    Served c a d w ↔ l.serves d w = true := by
  unfold Served
  simp only [hl, Option.some.injEq, exists_eq_left']

theorem served_readByte_iff {c : Config} (hc : c.Valid) (a : Addr) :
    Served c a .read .byte ↔ Claims.Admitted c (.readByte a) := by
  have hcap : c.outCap = 2 * c.bufCap + 8 := rfl
  unfold Served Claims.Admitted
  simp only [locate_eq_some_iff hc]
  constructor
  · rintro ⟨l, hl, hserves⟩
    cases l with
    | inByte i => obtain ⟨hi, ha⟩ := hl; left; omega
    | outByte i => obtain ⟨hi, ha⟩ := hl; right; omega
    | reg r => cases hserves
    | desc k => cases hserves
  · rintro (⟨hlo, hhi⟩ | ⟨hlo, hhi⟩)
    · exact ⟨.inByte (a.toNat - 0x10000), ⟨by omega, by omega⟩, rfl⟩
    · exact ⟨.outByte (a.toNat - 0x20000), ⟨by omega, by omega⟩, rfl⟩

theorem served_writeByte_iff {c : Config} (hc : c.Valid) (a : Addr) (b : Byte) :
    Served c a .write .byte ↔ Claims.Admitted c (.writeByte a b) := by
  unfold Served Claims.Admitted
  simp only [locate_eq_some_iff hc]
  constructor
  · rintro ⟨l, hl, hserves⟩
    cases l with
    | inByte i => obtain ⟨hi, ha⟩ := hl; omega
    | outByte i => cases hserves
    | reg r => cases hserves
    | desc k => cases hserves
  · rintro ⟨hlo, hhi⟩
    exact ⟨.inByte (a.toNat - 0x10000), ⟨by omega, by omega⟩, rfl⟩

theorem served_readWord_iff {c : Config} (hc : c.Valid) (a : Addr) :
    Served c a .read .word ↔ Claims.Admitted c (.readWord a) := by
  unfold Served Claims.Admitted
  simp only [locate_eq_some_iff hc]
  constructor
  · rintro ⟨l, hl, hserves⟩
    cases l with
    | reg r =>
      obtain ⟨hreg, hword, hr⟩ := hl
      have htxn := (exists_regAt_iff c.hasTxn (by omega)).1 ⟨r, hr⟩
      exact ⟨hword, .inl ⟨hreg, htxn.imp_right fun _ => by constructor <;> bv_omega⟩⟩
    | desc k => obtain ⟨hk, ha⟩ := hl; omega
    | inByte i => cases hserves
    | outByte i => cases hserves
  · rintro ⟨hword, ⟨hreg, htxn⟩ | ⟨hlo, hhi⟩⟩
    · obtain ⟨r, hr⟩ := (exists_regAt_iff c.hasTxn (n := a.toNat / 4) (by omega)).2
        (htxn.imp_right fun _ => by constructor <;> bv_omega)
      exact ⟨.reg r, ⟨hreg, hword, hr⟩, rfl⟩
    · exact ⟨.desc ((a.toNat - 0x40000) / 4), ⟨by omega, by omega⟩, rfl⟩

theorem served_writeWord_iff {c : Config} (hc : c.Valid) (a : Addr) (v : Word) :
    Served c a .write .word ↔ Claims.Admitted c (.writeWord a v) := by
  unfold Served Claims.Admitted
  simp only [locate_eq_some_iff hc]
  constructor
  · rintro ⟨l, hl, hserves⟩
    cases l with
    | reg r =>
      obtain ⟨hreg, hword, hr⟩ := hl
      have hn := (exists_regAt_writable_iff c.hasTxn (by omega)).1 ⟨r, hr, hserves⟩
      simp only [List.mem_cons, List.not_mem_nil, or_false] at hn ⊢
      bv_omega
    | inByte i => cases hserves
    | outByte i => cases hserves
    | desc k => cases hserves
  · intro ha
    simp only [List.mem_cons, List.not_mem_nil, or_false] at ha
    obtain ⟨r, hr, hwritable⟩ := (exists_regAt_writable_iff c.hasTxn (n := a.toNat / 4) (by bv_omega)).2
      (by simp only [List.mem_cons, List.not_mem_nil, or_false]; bv_omega)
    exact ⟨.reg r, ⟨by bv_omega, by bv_omega, hr⟩, hwritable⟩

/-- The map admits an access exactly where a location lies that serves it (R80 to R85). -/
theorem served_iff_admitted {c : Config} (hc : c.Valid) (x : Access) :
    Served c (Claims.addrOf x) (Claims.dirOf x) (Claims.widthOf x) ↔ Claims.Admitted c x := by
  cases x with
  | readByte a => exact served_readByte_iff hc a
  | readWord a => exact served_readWord_iff hc a
  | writeByte a b => exact served_writeByte_iff hc a b
  | writeWord a v => exact served_writeWord_iff hc a v

/-- IN_BUF serves 1-byte accesses only (R82). -/
theorem served_inByte_iff {c : Config} (hc : c.Valid) {i : Nat} (hi : i < c.bufCap) (d : Dir) (w : Width) :
    Served c (BitVec.ofNat 20 (0x10000 + i)) d w ↔ w = .byte := by
  rw [served_iff_of_locate (locate_inByte hc hi)]
  cases d <;> cases w <;> simp [Loc.serves]

/-- OUT_BUF serves 1-byte reads only (R83). -/
theorem served_outByte_iff {c : Config} (hc : c.Valid) {i : Nat} (hi : i < c.outCap) (d : Dir) (w : Width) :
    Served c (BitVec.ofNat 20 (0x20000 + i)) d w ↔ d = .read ∧ w = .byte := by
  rw [served_iff_of_locate (locate_outByte hc hi)]
  cases d <;> cases w <;> simp [Loc.serves]

/-- FDESC serves aligned 4-byte reads only (R85). -/
theorem served_desc_iff {c : Config} (hc : c.Valid) {j : Nat} (hj : j < 4 * c.bufCap) (d : Dir) (w : Width) :
    Served c (BitVec.ofNat 20 (0x40000 + j)) d w ↔ j % 4 = 0 ∧ d = .read ∧ w = .word := by
  unfold Served
  rw [locate_desc hc hj]
  by_cases hword : j % 4 = 0
  · cases d <;> cases w <;> simp [hword, Loc.serves]
  · simp [hword]

/-! ### What an access does, one rule for each kind of location -/

/-- An access that nothing at its address serves is an AccessFault, and nothing else changes (R84, R357). -/
theorem hostAccess_fault {s : State} {x : Access}
    (h : ¬Served s.cfg (Claims.addrOf x) (Claims.dirOf x) (Claims.widthOf x)) :
    hostAccess x s = Claims.replied s
      (.fault (.accessFault (Claims.addrOf x) (Claims.dirOf x) (Claims.widthOf x))) := by
  cases x with
  | readByte a =>
    unfold hostAccess hostReadByte
    dsimp only
    split
    exacts [absurd ⟨_, ‹_›, rfl⟩ h, absurd ⟨_, ‹_›, rfl⟩ h, rfl, rfl, rfl]
  | readWord a =>
    unfold hostAccess hostReadWord
    dsimp only
    split
    exacts [absurd ⟨_, ‹_›, rfl⟩ h, absurd ⟨_, ‹_›, rfl⟩ h, rfl, rfl, rfl]
  | writeByte a b =>
    unfold hostAccess hostWriteByte
    dsimp only
    split
    exacts [absurd ⟨_, ‹_›, rfl⟩ h, rfl, rfl, rfl, rfl]
  | writeWord a v =>
    unfold hostAccess hostWriteWord
    dsimp only
    split
    · split
      · exact absurd ⟨_, ‹_›, ‹_›⟩ h
      · rfl
    all_goals rfl

theorem hostAccess_readByte_inByte {s : State} {a : Addr} {i : Nat} (h : locate s.cfg a = some (.inByte i)) :
    hostAccess (.readByte a) s = s.answerByte (s.inBuf.read i) := by simp only [hostAccess, hostReadByte, h]

theorem hostAccess_readByte_outByte {s : State} {a : Addr} {i : Nat} (h : locate s.cfg a = some (.outByte i)) :
    hostAccess (.readByte a) s = s.answerByte (s.outByte i) := by simp only [hostAccess, hostReadByte, h]

theorem hostAccess_readWord_desc {s : State} {a : Addr} {k : Nat} (h : locate s.cfg a = some (.desc k)) :
    hostAccess (.readWord a) s = s.answerWord (s.descAt k) := by simp only [hostAccess, hostReadWord, h]

/-- A byte of IN_BUF is written while BUSY = 0 (R82). -/
theorem hostAccess_writeByte_inByte {s : State} {a : Addr} {i : Nat} (b : Byte) (h : locate s.cfg a = some (.inByte i))
    (hp : s.pending = false) :
    hostAccess (.writeByte a b) s = { Claims.replied s .written with inBuf := s.inBuf.write i b } := by
  simp only [hostAccess, hostWriteByte, h]
  exact if_neg (Bool.eq_false_iff.1 hp)

/-- A byte is answered whether it is defined or drawn; only the reply and the counter of draws change (R50; log 1). -/
theorem State.exists_answerByte (s : State) (v : Option Byte) :
    ∃ b n, s.answerByte v = { Claims.replied s (.byte b) with draws := n } := by
  cases v with
  | none => exact ⟨_, _, rfl⟩
  | some b => exact ⟨b, s.draws, rfl⟩

/-- A descriptor is answered whether it is defined or drawn; only the reply and the counter of draws change (R50; log 1). -/
theorem State.exists_answerWord (s : State) (v : Option Word) :
    ∃ d n, s.answerWord v = { Claims.replied s (.word d) with draws := n } := by
  cases v with
  | none => exact ⟨_, _, rfl⟩
  | some d => exact ⟨d, s.draws, rfl⟩

/-- A byte of OUT_BUF is the one the engine wrote, below OUT_LEN (R39). -/
theorem State.outByte_eq_read {s : State} {i : Nat} (hi : i < s.outs.outLen.toNat) : s.outByte i = s.outBuf.read i :=
  if_pos hi

/-- A descriptor is the one the engine wrote, below FRAME_COUNT (R41). -/
theorem State.descAt_eq_read {s : State} {k : Nat} (hk : k < s.outs.frameCount.toNat) : s.descAt k = s.fdesc.read k :=
  if_pos hk

/-- A served 1-byte read answers a byte, whatever BUSY is (R82, R83, R387). -/
theorem exists_hostAccess_readByte {s : State} {a : Addr} (h : Served s.cfg a .read .byte) :
    ∃ b n, hostAccess (.readByte a) s = { Claims.replied s (.byte b) with draws := n } := by
  obtain ⟨l, hl, hserves⟩ := h
  cases l with
  | inByte i => rw [hostAccess_readByte_inByte hl]; exact s.exists_answerByte _
  | outByte i => rw [hostAccess_readByte_outByte hl]; exact s.exists_answerByte _
  | reg r => cases hserves
  | desc k => cases hserves

/-- A served 4-byte read answers a word, whatever BUSY is (R81, R85, R387). -/
theorem exists_hostAccess_readWord {s : State} {a : Addr} (h : Served s.cfg a .read .word) :
    ∃ v n, hostAccess (.readWord a) s = { Claims.replied s (.word v) with draws := n } := by
  obtain ⟨l, hl, hserves⟩ := h
  cases l with
  | reg r => exact ⟨_, s.draws, hostAccess_readReg hl⟩
  | desc k => rw [hostAccess_readWord_desc hl]; exact s.exists_answerWord _
  | inByte i => cases hserves
  | outByte i => cases hserves

/-- A window whose every byte the host has written is what the host wrote (R34, R381). -/
theorem State.inBytes_eq_of_holdsInput {s : State} {x : List Byte} (h : Claims.HoldsInput s x) : s.inBytes = x := by
  obtain ⟨hlen, hread⟩ := h
  refine List.ext_getElem (by rw [s.length_inBytes, hlen]) fun k hk hkx => ?_
  rw [s.getElem_inBytes k hk, hread k hkx, Option.getD_some]

end Sys2Proof.Machine

namespace Sys2Proof.Claims

open Sys2Proof.Machine

/-- Settles O19: nothing at its address serves an access the map does not admit. -/
theorem unadmittedAccessFaults : Obligations.UnadmittedAccessFaults := by
  unfold Obligations.UnadmittedAccessFaults
  exact fun s x hc hx => hostAccess_fault (mt (served_iff_admitted hc x).1 hx)

/-- Settles O18: an unadmitted read answers its fault, an admitted one what lies at its address or a draw. -/
theorem hostReadsHaveNoSideEffect : Obligations.HostReadsHaveNoSideEffect := by
  unfold Obligations.HostReadsHaveNoSideEffect
  intro s x hc hx
  by_cases hadm : Admitted s.cfg x
  · have hserved := (served_iff_admitted hc x).2 hadm
    cases x with
    | readByte a =>
      obtain ⟨b, n, e⟩ := exists_hostAccess_readByte hserved
      exact ⟨_, n, e, fun _ _ => ⟨b, rfl⟩, fun _ hw => nomatch hw⟩
    | readWord a =>
      obtain ⟨v, n, e⟩ := exists_hostAccess_readWord hserved
      exact ⟨_, n, e, fun _ hw => (nomatch hw), fun _ _ => ⟨v, rfl⟩⟩
    | writeByte a b => cases hx
    | writeWord a v => cases hx
  · exact ⟨_, s.draws, unadmittedAccessFaults s x hc hadm, fun h => absurd h hadm, fun h => absurd h hadm⟩

/-- Settles O26: IN_BUF serves bytes only, and a byte written there is read back. -/
theorem inputBufferAccess : Obligations.InputBufferAccess := by
  unfold Obligations.InputBufferAccess
  refine ⟨fun s i b v hc hi => ?_, fun s x h => State.inBytes_eq_of_holdsInput h⟩
  have hloc := locate_inByte hc hi
  have hword (d : Dir) : ¬Served s.cfg (BitVec.ofNat 20 (0x10000 + i)) d .word :=
    mt (served_inByte_iff hc hi d .word).1 (by decide)
  refine ⟨fun hp => ⟨_, hostAccess_writeByte_inByte b hloc hp, s.inBuf.read_write i b⟩, fun c hr => ?_,
    hostAccess_fault (hword .read), hostAccess_fault (hword .write)⟩
  rw [hostAccess_readByte_inByte hloc, hr]
  rfl

/-- Settles O27: OUT_BUF serves reads of a byte only, and shows what the engine wrote below OUT_LEN. -/
theorem outputBufferAccess : Obligations.OutputBufferAccess := by
  unfold Obligations.OutputBufferAccess
  intro s i b v hc hi
  have hserved := served_outByte_iff hc hi
  refine ⟨fun c hlen hr => ?_, fun _ => exists_hostAccess_readByte ((hserved _ _).2 ⟨rfl, rfl⟩),
    hostAccess_fault (mt (hserved .write .byte).1 (by decide)), hostAccess_fault (mt (hserved .read .word).1 (by decide)),
    hostAccess_fault (mt (hserved .write .word).1 (by decide))⟩
  rw [hostAccess_readByte_outByte (locate_outByte hc hi), State.outByte_eq_read hlen, hr]
  rfl

/-- Settles O28: FDESC serves aligned reads of a word only, and shows what the engine wrote below FRAME_COUNT. -/
theorem descriptorAccess : Obligations.DescriptorAccess := by
  unfold Obligations.DescriptorAccess
  intro s j b v hc hj
  have hserved := served_desc_iff hc hj
  refine ⟨fun k d e hk hr => ?_, fun k e _ => exists_hostAccess_readWord ((hserved _ _).2 ⟨by omega, rfl, rfl⟩),
    fun hmisaligned => hostAccess_fault (mt (hserved .read .word).1 fun ⟨haligned, _⟩ => hmisaligned haligned),
    hostAccess_fault (mt (hserved .read .byte).1 (by simp)), hostAccess_fault (mt (hserved .write .byte).1 (by simp)),
    hostAccess_fault (mt (hserved .write .word).1 (by simp))⟩
  subst e
  rw [hostAccess_readWord_desc (locate_desc_aligned hc (by omega)), State.descAt_eq_read hk, hr]
  rfl

/-- Settles O5: the engine's turn, taken on its event or when none is left, runs the decoded command if one is pending. -/
theorem stepRunsPendingCommand : Obligations.StepRunsPendingCommand := by
  unfold Obligations.StepRunsPendingCommand
  intro s rest
  refine ⟨fun i hp hd he => ?_, fun i hp hd he => ?_, fun x he => step_access he, fun he => step_reset he,
    fun hp he => ?_, fun hp he => ?_⟩
  · rw [step_nil he, engineTurn_pending hp, engineStep_ok hd]
  · rw [step_engine he, engineTurn_pending (s := s.popEvent rest) hp, engineStep_ok (s := s.popEvent rest) hd]
    rfl
  · rw [step_engine he, engineTurn_idle (s := s.popEvent rest) hp]
    rfl
  · rw [step_nil he, engineTurn_idle hp]

end Sys2Proof.Claims

/-! # The rules of 30_encoding: decode and encode agree, the order of the decoder's checks, and illegal command words

A word is its OP, its operand fields and its reserved bits. Which command a word names says what the OP and the fields are
(`instrOf_eq_some_iff`), and encoding that command clears the reserved bits and nothing else (`encode_of_instrOf`). -/

namespace Sys2Proof

open Sys2Proof.Claims

/-! ### The fields of a command word (R110) -/

@[simp] theorem cmdOp_and (v w : Word) : cmdOp (v &&& w) = cmdOp v &&& cmdOp w := BitVec.extractLsb'_and

@[simp] theorem cmdProto_and (v w : Word) : cmdProto (v &&& w) = cmdProto v &&& cmdProto w := BitVec.extractLsb'_and

@[simp] theorem cmdReq_and (v w : Word) : cmdReq (v &&& w) = (cmdReq v && cmdReq w) := BitVec.getLsbD_and

@[simp] theorem cmdXseq_and (v w : Word) : cmdXseq (v &&& w) = (cmdXseq v && cmdXseq w) := BitVec.getLsbD_and

@[simp] theorem cmdXunit_and (v w : Word) : cmdXunit (v &&& w) = (cmdXunit v && cmdXunit w) := BitVec.getLsbD_and

/-- The five fields lie in bits [12:0] and cover them (R110). -/
theorem packCmd_fields (w : Word) :
    packCmd (cmdOp w) (cmdProto w) (cmdReq w) (cmdXseq w) (cmdXunit w) = w &&& 0x1FFF#32 := by
  apply BitVec.eq_of_getLsbD_eq
  intro j hj
  interval_cases j <;> simp [packCmd, cmdOp, cmdProto, cmdReq, cmdXseq, cmdXunit]

/-- A word is packed from its fields once the bits outside `m`, a mask within bits [12:0], are cleared. -/
theorem packCmd_fields_and (w : Word) {m : Word} (hm : m &&& 0x1FFF#32 = m) :
    packCmd (cmdOp w &&& cmdOp m) (cmdProto w &&& cmdProto m) (cmdReq w && cmdReq m) (cmdXseq w && cmdXseq m)
      (cmdXunit w && cmdXunit m) = w &&& m := by
  have h := packCmd_fields (w &&& m)
  rw [BitVec.and_assoc, hm] at h
  simpa using h

/-- A word without other bits is its OP. -/
@[simp] theorem cmdOp_setWidth (op : Byte) : cmdOp (op.setWidth 32) = op := by
  unfold cmdOp
  ext j hj
  simp [hj, Nat.lt_trans hj]

@[simp] theorem cmdOp_or (v w : Word) : cmdOp (v ||| w) = cmdOp v ||| cmdOp w := BitVec.extractLsb'_or

/-- Clearing every bit but OP's keeps OP alone. -/
theorem and_opMask (w : Word) : w &&& 0xFF#32 = (cmdOp w).setWidth 32 := by
  apply BitVec.eq_of_toNat_eq
  rw [BitVec.toNat_and]
  exact (Nat.and_two_pow_sub_one_eq_mod w.toNat 8).trans (by simp [cmdOp]; omega)

/-! ### The command a word names (R112, R114) -/

/-- A word names a command exactly when it has the command's OP and its operand fields. -/
theorem instrOf_eq_some_iff {w : Word} {i : Instr} : instrOf w = some i ↔ cmdOp w = i.op ∧ FieldsOf w i := by
  constructor
  · intro h
    unfold instrOf at h
    split at h
    all_goals cases h
    all_goals exact ⟨‹_›, by simp [FieldsOf, cmdReq, cmdXseq, cmdXunit, cmdProto]⟩
  · rintro ⟨hop, hfields⟩
    unfold instrOf
    rw [hop]
    cases i
    all_goals simp_all [FieldsOf, Instr.op, cmdReq, cmdXseq, cmdXunit, cmdProto]

/-- A word names a command exactly when its OP is assigned. -/
theorem exists_instrOf_iff {w : Word} : (∃ i, instrOf w = some i) ↔ cmdOp w ∈ assignedOps := by
  rw [← Option.isSome_iff_exists]
  unfold instrOf
  split
  all_goals simp_all [assignedOps]

theorem op_mem_assignedOps (i : Instr) : i.op ∈ assignedOps := by cases i <;> decide +revert

/-- The TXN commands are those with an OP from 0x40 to 0x46 (R112). -/
theorem isTxn_iff_op (i : Instr) : i.isTxn = true ↔ 0x40 ≤ i.op.toNat ∧ i.op.toNat ≤ 0x46 := by
  cases i <;> decide +revert

/-- The `used` mask of R116 depends on the OP alone. -/
theorem usedBits_op (i : Instr) : usedBits i.op = usedMask i := by cases i <;> decide +revert

theorem Instr.wf_iff {hasTxn : Bool} {i : Instr} : i.wf hasTxn = true ↔ ¬(i.isTxn && !hasTxn) = true := by
  unfold Instr.wf
  cases i.isTxn <;> simp

theorem knownOp_op_iff {hasTxn : Bool} {i : Instr} : KnownOp hasTxn i.op ↔ i.wf hasTxn = true := by
  unfold KnownOp
  rw [← and_assoc, ← isTxn_iff_op, Instr.wf_iff]
  simp [op_mem_assignedOps]

/-- The OP of a word is known exactly when the word names a command of the block (R112, R117). -/
theorem knownOp_iff {hasTxn : Bool} {w : Word} :
    KnownOp hasTxn (cmdOp w) ↔ ∃ i, instrOf w = some i ∧ i.wf hasTxn = true := by
  constructor
  · intro h
    obtain ⟨i, hi⟩ := exists_instrOf_iff.2 h.1
    rw [(instrOf_eq_some_iff.1 hi).1] at h
    exact ⟨i, hi, knownOp_op_iff.1 h⟩
  · rintro ⟨i, hi, hwf⟩
    rw [(instrOf_eq_some_iff.1 hi).1]
    exact knownOp_op_iff.2 hwf

/-! ### The decoder, said once (R116) -/

theorem decode_of_not_known {hasTxn : Bool} {w : Word} (h : ¬KnownOp hasTxn (cmdOp w)) :
    decode hasTxn w = .error .opcode := by
  unfold decode
  cases hi : instrOf w with
  | none => rfl
  | some i => exact if_pos (not_not.1 fun hwf => h (knownOp_iff.2 ⟨i, hi, Instr.wf_iff.2 hwf⟩))

theorem decode_of_wf {hasTxn : Bool} {w : Word} {i : Instr} (hi : instrOf w = some i) (hwf : i.wf hasTxn = true) :
    decode hasTxn w = if w &&& ~~~(usedMask i) ≠ 0#32 then .error .rsvd else .ok i := by
  unfold decode
  rw [hi]
  exact if_neg (Instr.wf_iff.1 hwf)

/-- The decoder's outcomes: no known OP, a reserved bit, or the command that the word names. -/
theorem decode_cases (hasTxn : Bool) (w : Word) :
    (¬KnownOp hasTxn (cmdOp w) ∧ decode hasTxn w = .error .opcode) ∨
    (KnownOp hasTxn (cmdOp w) ∧ w &&& ~~~usedBits (cmdOp w) ≠ 0#32 ∧ decode hasTxn w = .error .rsvd) ∨
    (KnownOp hasTxn (cmdOp w) ∧ w &&& ~~~usedBits (cmdOp w) = 0#32 ∧
      ∃ i, instrOf w = some i ∧ i.wf hasTxn = true ∧ decode hasTxn w = .ok i) := by
  by_cases hknown : KnownOp hasTxn (cmdOp w)
  · obtain ⟨i, hi, hwf⟩ := knownOp_iff.1 hknown
    have hd := decode_of_wf hi hwf
    rw [← usedBits_op, ← (instrOf_eq_some_iff.1 hi).1] at hd
    by_cases hbits : w &&& ~~~usedBits (cmdOp w) = 0#32
    · exact .inr (.inr ⟨hknown, hbits, i, hi, hwf, hd.trans (if_neg (not_not.2 hbits))⟩)
    · exact .inr (.inl ⟨hknown, hbits, hd.trans (if_pos hbits)⟩)
  · exact .inl ⟨hknown, decode_of_not_known hknown⟩

theorem decode_eq_opcode_iff {hasTxn : Bool} {w : Word} :
    decode hasTxn w = .error .opcode ↔ ¬KnownOp hasTxn (cmdOp w) := by
  rcases decode_cases hasTxn w with ⟨hk, hd⟩ | ⟨hk, -, hd⟩ | ⟨hk, -, i, -, -, hd⟩ <;> simp [hk, hd]

theorem decode_eq_rsvd_iff {hasTxn : Bool} {w : Word} :
    decode hasTxn w = .error .rsvd ↔ KnownOp hasTxn (cmdOp w) ∧ w &&& ~~~usedBits (cmdOp w) ≠ 0#32 := by
  rcases decode_cases hasTxn w with ⟨hk, hd⟩ | ⟨hk, hb, hd⟩ | ⟨hk, hb, i, -, -, hd⟩
  · simp [hk, hd]
  · simp [hk, hb, hd]
  · simp [hb, hd]

theorem exists_decode_iff {hasTxn : Bool} {w : Word} :
    (∃ i, decode hasTxn w = .ok i) ↔ KnownOp hasTxn (cmdOp w) ∧ w &&& ~~~usedBits (cmdOp w) = 0#32 := by
  rcases decode_cases hasTxn w with ⟨hk, hd⟩ | ⟨hk, hb, hd⟩ | ⟨hk, hb, i, -, -, hd⟩
  · simp [hk, hd]
  · simp [hb, hd]
  · simp [hk, hb, hd]

/-- A word decodes to `i` exactly when it names `i`, `i` is a command of the block, and no reserved bit is set. -/
theorem decode_eq_ok_iff {hasTxn : Bool} {w : Word} {i : Instr} :
    decode hasTxn w = .ok i ↔ instrOf w = some i ∧ i.wf hasTxn = true ∧ w &&& ~~~usedMask i = 0#32 := by
  constructor
  · intro h
    rcases decode_cases hasTxn w with ⟨-, hd⟩ | ⟨-, -, hd⟩ | ⟨-, hb, j, hj, hwf, hd⟩
    · exact nomatch hd.symm.trans h
    · exact nomatch hd.symm.trans h
    · cases hd.symm.trans h
      rw [(instrOf_eq_some_iff.1 hj).1, usedBits_op] at hb
      exact ⟨hj, hwf, hb⟩
  · rintro ⟨hi, hwf, hb⟩
    exact (decode_of_wf hi hwf).trans (if_neg (not_not.2 hb))

/-! ### The encoder (R120) -/

/-- A command uses no bit beyond the five fields (R110). -/
theorem usedMask_and_fields (i : Instr) : usedMask i &&& 0x1FFF#32 = usedMask i := by cases i <;> decide +revert

/-- Encoding the command a word names clears the reserved bits of the word and nothing else. -/
theorem encode_of_instrOf {w : Word} {i : Instr} (h : instrOf w = some i) : encode i = w &&& usedMask i := by
  obtain ⟨hop, hfields⟩ := instrOf_eq_some_iff.1 h
  rw [← packCmd_fields_and w (usedMask_and_fields i), hop]
  have hproto (p : BitVec 2) : p &&& 3#2 = p := BitVec.and_allOnes
  cases i
  all_goals
    simp only [FieldsOf] at hfields
    simp [hfields, hproto, encode, usedMask, Instr.op, cmdOp, cmdProto, cmdReq, cmdXseq, cmdXunit]

/-- The encoding of a command names it, with every operand. -/
theorem instrOf_encode (i : Instr) : instrOf (encode i) = some i := by cases i <;> decide +revert

/-- No bit outside a mask is set exactly when the mask leaves the word as it is. -/
theorem and_not_eq_zero_iff {w m : Word} : w &&& ~~~m = 0#32 ↔ w &&& m = w := by
  have hsplit : w &&& m ||| w &&& ~~~m = w := by
    rw [← BitVec.and_or_distrib_left, BitVec.or_not_self, BitVec.and_allOnes]
  constructor
  · intro h
    rwa [h, BitVec.or_zero] at hsplit
  · intro h
    rw [← h, BitVec.and_assoc, BitVec.and_not_self]
    exact BitVec.and_zero

/-- A word names `i` with no reserved bit set exactly when it is the encoding of `i`. -/
theorem instrOf_and_reserved_iff {w : Word} {i : Instr} :
    instrOf w = some i ∧ w &&& ~~~usedMask i = 0#32 ↔ encode i = w := by
  constructor
  · rintro ⟨hi, hbits⟩
    exact (encode_of_instrOf hi).trans (and_not_eq_zero_iff.1 hbits)
  · rintro rfl
    have hi := instrOf_encode i
    exact ⟨hi, and_not_eq_zero_iff.2 (encode_of_instrOf hi).symm⟩

/-! ### The opcode table (R116) -/

/-- The row of an OP in the opcode table: OP is matched, and so is every bit the OP does not use. -/
def rowOf (op : Byte) : Word × Word := (op.setWidth 32, ~~~usedBits op ||| 0xFF#32)

theorem opcodeRows_eq : opcodeRows = assignedOps.map rowOf := by decide

/-- Every command uses its OP bits. -/
theorem not_usedBits_and_opMask (op : Byte) : ~~~usedBits op &&& 0xFF#32 = 0#32 := by
  unfold usedBits
  split_ifs <;> decide

/-- A word matches the row of an OP exactly when it has this OP and sets no bit the OP does not use. -/
theorem matches_rowOf_iff {w : Word} {op : Byte} :
    w &&& (rowOf op).2 = (rowOf op).1 ↔ cmdOp w = op ∧ w &&& ~~~usedBits op = 0#32 := by
  have hdisjoint := not_usedBits_and_opMask op
  unfold rowOf
  generalize ~~~usedBits op = m at hdisjoint ⊢
  rw [BitVec.and_or_distrib_left, and_opMask]
  constructor
  · intro h
    have hm : cmdOp m = 0#8 := by rw [← cmdOp_setWidth (cmdOp m), ← and_opMask, hdisjoint]; rfl
    obtain rfl : cmdOp w = op := by simpa [hm] using congrArg cmdOp h
    have hopBits : (cmdOp w).setWidth 32 &&& m = 0#32 := by
      rw [← and_opMask, BitVec.and_assoc, BitVec.and_comm _ m, hdisjoint, BitVec.and_zero]
    refine ⟨rfl, ?_⟩
    calc w &&& m = (w &&& m ||| (cmdOp w).setWidth 32) &&& m := by
          rw [BitVec.and_or_distrib_right, hopBits, BitVec.or_zero, BitVec.and_assoc, BitVec.and_self]
      _ = (cmdOp w).setWidth 32 &&& m := by rw [h]
      _ = 0#32 := hopBits
  · rintro ⟨rfl, hbits⟩
    rw [hbits, BitVec.zero_or]

/-- A word matches a row of the table exactly when its OP is assigned and it sets no bit the OP does not use. -/
theorem exists_opcodeRow_iff {w : Word} : (∃ row ∈ opcodeRows, w &&& row.2 = row.1) ↔
    cmdOp w ∈ assignedOps ∧ w &&& ~~~usedBits (cmdOp w) = 0#32 := by
  rw [opcodeRows_eq]
  constructor
  · rintro ⟨row, hrow, hmatch⟩
    obtain ⟨op, hop, rfl⟩ := List.mem_map.1 hrow
    obtain ⟨rfl, hbits⟩ := matches_rowOf_iff.1 hmatch
    exact ⟨hop, hbits⟩
  · rintro ⟨hop, hbits⟩
    exact ⟨_, List.mem_map_of_mem hop, matches_rowOf_iff.2 ⟨rfl, hbits⟩⟩

end Sys2Proof

namespace Sys2Proof.Machine

/-! ### An illegal command word (R116 to R118) -/

/-- The engine's turn on a pending word that is illegal posts the reason of the decode error (R355). -/
theorem engineTurn_error {s : State} {e : DecodeError} (hp : s.pending = true)
    (hd : decode s.cfg.hasTxn s.cmd = .error e) :
    engineTurn s = .next { s with
      outs := OutputRegs.zero, status := Status.failed (decodeReason e), pending := false
      tblBuilt := s.tblBuilt || Config.freeBool s.draws, draws := s.draws + 1 } := by
  rw [engineTurn_pending hp, engineStep_error hd]
  exact congrArg _ (perform_raise (t := s.clearOutputs) rfl)

/-- The step is the engine's turn, when its event is the next or none is left. -/
theorem step_eq_engineTurn {s u : State} (h : (s.host.events = [] ∧ u = s) ∨
    ∃ rest, s.host.events = .engine :: rest ∧ u = s.popEvent rest) : step s = engineTurn u := by
  rcases h with ⟨he, rfl⟩ | ⟨rest, he, rfl⟩
  · exact step_nil he
  · exact step_engine he

end Sys2Proof.Machine

namespace Sys2Proof.Claims

open Sys2Proof.Machine

/-- Settles O2: a word names a command with no reserved bit set exactly when it is the command's encoding. -/
theorem decodeAndEncodeAgree : Obligations.DecodeAndEncodeAgree := by
  unfold Obligations.DecodeAndEncodeAgree
  intro hasTxn w i
  rw [decode_eq_ok_iff, ← instrOf_and_reserved_iff]
  exact and_left_comm

/-- Settles O3: the decoder's outcomes, and the opcode table row by row. -/
theorem decodeFollowsR116 : Obligations.DecodeFollowsR116 := by
  unfold Obligations.DecodeFollowsR116
  intro hasTxn w
  refine ⟨decode_eq_opcode_iff, decode_eq_rsvd_iff, fun i h => ?_, ?_⟩
  · obtain ⟨hop, hfields⟩ := instrOf_eq_some_iff.1 (decode_eq_ok_iff.1 h).1
    exact ⟨hop.symm, hfields⟩
  · rw [exists_decode_iff, exists_opcodeRow_iff]
    simp [KnownOp]

/-- Settles O4: the engine's turn on the decode error, of either kind, that the word gives. -/
theorem illegalWordPostsBadCommand : Obligations.IllegalWordPostsBadCommand := by
  unfold Obligations.IllegalWordPostsBadCommand
  intro s u hp hevent
  have hstep {e : DecodeError} (hd : decode s.cfg.hasTxn s.cmd = .error e) :
      StepRaises s u (Status.failed (decodeReason e)).err (Status.failed (decodeReason e)).reason := by
    refine ⟨Config.freeBool u.draws, u.draws + 1, (step_eq_engineTurn hevent).trans ?_⟩
    rcases hevent with ⟨-, rfl⟩ | ⟨rest, -, rfl⟩
    · exact engineTurn_error hp hd
    · exact engineTurn_error (s := s.popEvent rest) hp hd
  exact ⟨fun hop => hstep (decode_eq_opcode_iff.2 hop), fun hop hbits => hstep (decode_eq_rsvd_iff.2 ⟨hop, hbits⟩)⟩

/-- Settles O1: each of the nine words is decoded. -/
theorem sampleWordsDecode : Obligations.SampleWordsDecode := by
  unfold Obligations.SampleWordsDecode
  decide

end Sys2Proof.Claims

/-! # The rules of 41_checksums: the LRC, the CRC in its table-driven and its bit-serial form, and the commands of the CHK unit

The LRC is the negation of the byte sum. The CRC's shift is linear over exclusive or, so eight shifts of a word act on its two
bytes separately: on the low byte they are a table entry, and the high byte only moves down (`crcShift_iterate_eight`). -/

namespace Sys2Proof.Machine

/-! ### The LRC (R151) -/

/-- Inverting the low 8 bits and adding 1 negates the byte sum modulo 256 (R151). -/
theorem lrc_eq_neg {s : List Byte} (h : 2 ≤ s.length) : lrc s = .ok (-BitVec.ofNat 8 (byteSum s)) := by
  unfold lrc
  rw [if_neg (by omega), BitVec.ofNat_add, BitVec.ofNat_xor, BitVec.ofNat_and, BitVec.neg_eq_not_add]
  congr 2
  exact (congrArg (· ^^^ BitVec.allOnes 8) BitVec.and_allOnes).trans BitVec.xor_allOnes

theorem lrcOf_eq_neg (x : List Byte) : Claims.lrcOf x = -BitVec.ofNat 8 (byteSum x) := by
  apply BitVec.eq_of_toNat_eq
  rw [BitVec.toNat_neg, BitVec.toNat_ofNat]
  exact Nat.mod_mod _ _

theorem lrc_ok {s : List Byte} (h : 2 ≤ s.length) : lrc s = .ok (Claims.lrcOf s) := by
  rw [lrc_eq_neg h, lrcOf_eq_neg]

/-! ### The CRC table (R152) -/

/-- The statements' repeated shift is the model's. -/
theorem shift8_eq_iterate (n : Nat) (c : Half) : Claims.shift8 n c = crcShift^[n] c := by
  induction n generalizing c with
  | zero => rfl
  | succ n ih => exact ih (crcShift c)

theorem crcTable_eq_shift8 (i : Byte) : crcTable i = Claims.shift8 8 (i.setWidth 16) := (shift8_eq_iterate 8 _).symm

theorem crcTable_zero : crcTable 0 = 0 := by decide

/-- The shift is linear over exclusive or: the polynomial is added once for each operand whose bit 0 is set. -/
theorem crcShift_xor (a b : Half) : crcShift (a ^^^ b) = crcShift a ^^^ crcShift b := by
  unfold crcShift
  rw [BitVec.getLsbD_xor, BitVec.ushiftRight_xor_distrib]
  cases a.getLsbD 0 <;> cases b.getLsbD 0
  · rfl
  · exact BitVec.xor_assoc _ _ _
  · show a >>> 1 ^^^ b >>> 1 ^^^ crcPoly = a >>> 1 ^^^ crcPoly ^^^ b >>> 1
    ac_rfl
  · show a >>> 1 ^^^ b >>> 1 = a >>> 1 ^^^ crcPoly ^^^ (b >>> 1 ^^^ crcPoly)
    rw [show a >>> 1 ^^^ crcPoly ^^^ (b >>> 1 ^^^ crcPoly) = a >>> 1 ^^^ b >>> 1 ^^^ (crcPoly ^^^ crcPoly) by ac_rfl,
      BitVec.xor_self, BitVec.xor_zero]

theorem crcShift_iterate_xor (n : Nat) (a b : Half) : crcShift^[n] (a ^^^ b) = crcShift^[n] a ^^^ crcShift^[n] b :=
  Function.Semiconj₂.iterate crcShift_xor n a b

/-- While only zero bits leave the word, the polynomial is never added. -/
theorem crcShift_iterate_of_low_zero (n : Nat) (c : Half) (h : ∀ k < n, c.getLsbD k = false) :
    crcShift^[n] c = c >>> n := by
  induction n generalizing c with
  | zero => exact (BitVec.ushiftRight_zero c).symm
  | succ n ih =>
    have hshift : crcShift c = c >>> 1 := if_neg (by rw [h 0 n.succ_pos]; decide)
    rw [Function.iterate_succ_apply, hshift, ih, ← BitVec.shiftRight_add, Nat.add_comm]
    intro k hk
    rw [BitVec.getLsbD_ushiftRight]
    exact h (1 + k) (by omega)

/-- A word is its low byte and its high byte. -/
theorem half_eq_low_xor_high (x : Half) : x = (x.setWidth 8).setWidth 16 ^^^ (x >>> 8) <<< 8 := by
  ext j hj
  by_cases h : j < 8
  · simp [h, hj]
  · simp [h, hj, Nat.add_sub_cancel' (Nat.le_of_not_lt h), BitVec.getLsbD_eq_getElem]

/-- Eight shifts of a word: the table entry of its low byte, and its high byte moved down. -/
theorem crcShift_iterate_eight (x : Half) : crcShift^[8] x = x >>> 8 ^^^ crcTable (x.setWidth 8) := by
  have hhigh : crcShift^[8] ((x >>> 8) <<< 8) = x >>> 8 := by
    rw [crcShift_iterate_of_low_zero 8 _ fun k hk => by simp [hk]]
    ext j hj
    simpa using BitVec.lt_of_getLsbD
  calc crcShift^[8] x = crcShift^[8] ((x.setWidth 8).setWidth 16 ^^^ (x >>> 8) <<< 8) := by rw [← half_eq_low_xor_high]
    _ = crcTable (x.setWidth 8) ^^^ x >>> 8 := by rw [crcShift_iterate_xor, hhigh]; rfl
    _ = x >>> 8 ^^^ crcTable (x.setWidth 8) := BitVec.xor_comm _ _

/-! ### The CRC of a sequence (R156, R157, R160) -/

/-- A byte lies below bit 8. -/
theorem setWidth_ushiftRight_eight (b : Byte) : b.setWidth 16 >>> 8 = (0 : Half) := by
  ext j hj
  simp

/-- One byte of the table-driven loop is one byte of the bit-serial loop (R157). -/
theorem crcByte_eq_serial (crc : Half) (b : Byte) : crcByte crc b = Claims.shift8 8 (crc ^^^ b.setWidth 16) := by
  rw [shift8_eq_iterate, crcShift_iterate_eight, BitVec.ushiftRight_xor_distrib, setWidth_ushiftRight_eight]
  exact congrArg (· ^^^ _) BitVec.xor_zero.symm

theorem foldl_crcByte_eq_crcSerial (seed : Half) (x : List Byte) : x.foldl crcByte seed = Claims.crcSerial seed x :=
  congrArg (fun f => x.foldl f seed) (funext₂ crcByte_eq_serial)

/-- The low byte of a word, as the table's index, is the word with the high byte masked out (R156). -/
theorem low_byte_eq_and (x : Half) : (x.setWidth 8).setWidth 16 = x &&& 0x00FF#16 := by
  apply BitVec.eq_of_toNat_eq
  rw [BitVec.toNat_setWidth_of_le (by decide), BitVec.toNat_setWidth, BitVec.toNat_and]
  exact (Nat.and_two_pow_sub_one_eq_mod x.toNat 8).symm

theorem foldl_crcByte_eq_crcOf (seed : Half) (x : List Byte) : x.foldl crcByte seed = Claims.crcOf seed x := by
  refine congrArg (fun f => x.foldl f seed) (funext₂ fun crc b => ?_)
  rw [← low_byte_eq_and, ← crcTable_eq_shift8, crcByte]

/-- A CRC followed by its own low byte: the index is 0, and the high byte is left. -/
theorem crcByte_low_byte (c : Half) : crcByte c (c.setWidth 8) = c >>> 8 := by
  have hindex : (c ^^^ (c.setWidth 8).setWidth 16).setWidth 8 = (0 : Byte) := by
    rw [BitVec.setWidth_xor, BitVec.setWidth_setWidth_of_le _ (by decide), BitVec.setWidth_eq, BitVec.xor_self]
    rfl
  rw [crcByte, hindex, crcTable_zero]
  exact BitVec.xor_zero

theorem foldl_crcByte_append_wire (seed c : Half) (x : List Byte) (h : x.foldl crcByte seed = c) :
    (x ++ crcWire c).foldl crcByte seed = 0 := by
  rw [List.foldl_append, h]
  show crcByte (crcByte c (c.setWidth 8)) ((c >>> 8).setWidth 8) = 0
  rw [crcByte_low_byte, crcByte_low_byte, ← BitVec.shiftRight_add]
  exact BitVec.ushiftRight_eq_zero (by decide)

/-! ### What a command leaves, from what its body gives (R355) -/

/-- A command completes if its body does, having written only the result registers, TBL_BUILT and the draws. -/
theorem completes_of_body {i : Instr} {s : State} {o : OutputRegs} {tbl : Bool} {n : Nat}
    (h : bodyOf i s.clearOutputs = .done { s with outs := o, tblBuilt := tbl, draws := n }) : Claims.Completes i s o tbl :=
  ⟨n, by rw [exec_eq, perform_done h]; rfl⟩

/-- A command whose body raises with TBL_BUILT as it was posts the reason's codes. -/
theorem raises_of_body {i : Instr} {s t : State} {r : Reason} (h : bodyOf i s.clearOutputs = .raise r t)
    (ht : t.tblBuilt = s.tblBuilt) : Claims.Raises i s r.kind.code r.code Claims.MayBuild :=
  ⟨Config.freeBool t.draws, t.draws + 1, trivial, by rw [exec_eq, perform_raise h, ht]; rfl⟩

/-- A CRC sets TBL_BUILT, whatever it was (R153). -/
theorem State.noteTable_true (s : State) : s.noteTable true = { s with tblBuilt := true } := by
  rw [State.noteTable, Bool.or_true]

/-- TIDX as a word: the high byte of PARAM (R36). -/
theorem State.tidx_setWidth (s : State) : s.tidx.setWidth 16 = BitVec.ofNat 16 (s.opnd.param.toNat / 256) := by
  have htidx : s.tidx.toNat = s.opnd.param.toNat / 256 := by
    rw [State.tidx, BitVec.toNat_setWidth, BitVec.toNat_ushiftRight, Nat.shiftRight_eq_div_pow]
    omega
  rw [← BitVec.ofNat_toNat, htidx]

/-- A window outside IN_BUF (R353). -/
theorem raises_of_not_inWindow {i : Instr} {s : State} {b : List Byte → Body} (hi : bodyOf i = withIn b)
    (h : ¬Claims.InWindow s) : Claims.Raises i s 1 0x0B Claims.MayBuild := by
  have hbody : bodyOf i s.clearOutputs = .raise .inlen s.clearOutputs := by
    rw [hi]
    exact withIn_out (Bool.eq_false_iff.2 (mt s.inBound_iff.1 h))
  exact raises_of_body hbody rfl

/-- A body that reads IN, run in a window inside IN_BUF: it gets the bytes of IN, and their draws are taken. -/
theorem bodyOf_inWindow {i : Instr} {s : State} {b : List Byte → Body} (hi : bodyOf i = withIn b) (h : Claims.InWindow s) :
    bodyOf i s.clearOutputs = b s.inBytes s.clearOutputs.readIn := by
  rw [hi]
  exact withIn_in (s.inBound_iff.2 h)

/-! ### TBL_BUILT changes no result (O14)

`perform` and every body pass the table flag through: on a state that differs only in the flag they give a result that
differs only in it. -/

/-- Replaces TBL_BUILT (R47). -/
def State.setTable (c : Bool) (s : State) : State := { s with tblBuilt := c }

@[simp] theorem State.setTable_cfg (c : Bool) (s : State) : (s.setTable c).cfg = s.cfg := rfl
@[simp] theorem State.setTable_opnd (c : Bool) (s : State) : (s.setTable c).opnd = s.opnd := rfl
@[simp] theorem State.setTable_txn (c : Bool) (s : State) : (s.setTable c).txn = s.txn := rfl
@[simp] theorem State.seqPair_setTable (c : Bool) (s : State) : (s.setTable c).seqPair = s.seqPair := rfl
@[simp] theorem State.xunit_setTable (c : Bool) (s : State) : (s.setTable c).xunit = s.xunit := rfl

/-- A body gives the same result whatever TBL_BUILT was, but for TBL_BUILT itself (R153). -/
def Body.IgnoresTable (b : Body) : Prop := ∀ c s, ∃ c', b (s.setTable c) = (b s).map (State.setTable c')

theorem ignoresTable_withBound {b : Body} (h : b.IgnoresTable) : Body.IgnoresTable (withBound b) := by
  intro c s
  cases hin : s.inBound with
  | true => rw [withBound_in hin, withBound_in (s := s.setTable c) hin]; exact h c s
  | false => rw [withBound_out hin, withBound_out (s := s.setTable c) hin]; exact ⟨c, rfl⟩

theorem ignoresTable_withIn {b : List Byte → Body} (h : ∀ f, (b f).IgnoresTable) : Body.IgnoresTable (withIn b) :=
  ignoresTable_withBound fun c s => h s.inBytes c s.readIn

theorem ignoresTable_withTxn {b : Body} (h : b.IgnoresTable) : Body.IgnoresTable (withTxn b) := by
  intro c s
  cases htxn : s.cfg.hasTxn with
  | true => rw [withTxn_has htxn, withTxn_has (s := s.setTable c) htxn]; exact h c s
  | false => rw [withTxn_none htxn, withTxn_none (s := s.setTable c) htxn]; exact ⟨c, rfl⟩

theorem ignoresTable_withProto (q : BitVec 2) (acc : List TxnState) {b : Protocol → Body} (h : ∀ p, (b p).IgnoresTable) :
    Body.IgnoresTable (withProto q acc b) := by
  intro c s
  unfold withProto
  cases protocolOf q with
  | none => exact ⟨c, rfl⟩
  | some p =>
    rw [State.setTable_txn]
    dsimp only
    split_ifs
    · exact h p c s
    · exact ⟨c, rfl⟩

/-- Noting a CRC first joins a constant to the flag. -/
theorem ignoresTable_noteTable {b : Body} (h : b.IgnoresTable) (built : Bool) :
    Body.IgnoresTable (fun s => b (s.noteTable built)) := fun c s => h (c || built) (s.noteTable built)

theorem ignoresTable_outOrRaise (r : Except Reason (List Byte)) : Body.IgnoresTable (outOrRaise r) := by
  intro c s
  cases r <;> exact ⟨c, rfl⟩

/-- A framer (R190, R232, R275). -/
theorem ignoresTable_framer (scan : List Byte → Scan) :
    Body.IgnoresTable (withIn (fun b s => .done (s.setFrames s.opnd.inOfs.toNat b (scan b)))) :=
  ignoresTable_withIn fun _ c _ => ⟨c, rfl⟩

theorem ignoresTable_storeRequest (p : Protocol) (f : List Byte) : Body.IgnoresTable (storeRequest p f) := by
  intro c s
  refine ⟨c || decBuilds p f, ?_⟩
  unfold storeRequest
  rw [State.setTable_cfg]
  cases decP s.cfg.asciiLower p f with
  | error e => rfl
  | ok r =>
    dsimp only
    split_ifs <;> rfl

theorem ignoresTable_renderAdu (p : Protocol) (adu : List Byte) : Body.IgnoresTable (renderAdu p adu) := fun c s =>
  ignoresTable_noteTable (ignoresTable_outOrRaise _) _ c s

theorem ignoresTable_storeResponse (p : Protocol) (d : List Byte) : Body.IgnoresTable (storeResponse p d) := by
  intro c s
  refine ⟨c, ?_⟩
  unfold storeResponse
  dsimp only
  split_ifs <;> rfl

theorem ignoresTable_setrspTcp (f : List Byte) : Body.IgnoresTable (setrspTcp f) := by
  intro c s
  unfold setrspTcp
  rw [State.setTable_cfg, State.setTable_txn]
  cases tcpValid f (if s.cfg.rspCheckSeq then some s.txn.seq else none) (some s.txn.unit) with
  | error e => exact ⟨c, rfl⟩
  | ok u => exact ignoresTable_storeResponse _ _ c s.readIn

theorem ignoresTable_setrspSerial (p : Protocol) (f : List Byte) : Body.IgnoresTable (setrspSerial p f) := by
  intro c s
  unfold setrspSerial
  rw [State.setTable_cfg]
  cases decP s.cfg.asciiLower p f with
  | error e => exact ⟨c || decBuilds p f, rfl⟩
  | ok r =>
    dsimp only
    rw [State.noteTable_txn, State.noteTable_txn, State.setTable_txn]
    split_ifs
    · exact ⟨c || decBuilds p f, rfl⟩
    · exact ignoresTable_noteTable (ignoresTable_storeResponse _ _) _ c s

/-- Every command's body passes the table flag through (R153). -/
theorem ignoresTable_bodyOf (i : Instr) : (bodyOf i).IgnoresTable := by
  cases i with
  | lrc =>
    unfold bodyOf bodyLrc
    refine ignoresTable_withIn fun f c s => ⟨c, ?_⟩
    cases lrc f <;> rfl
  | crc16 =>
    unfold bodyOf bodyCrc16
    refine ignoresTable_withIn fun f c s => ?_
    rw [State.setTable_opnd]
    cases crc16 f s.opnd.seed with
    | error e => exact ⟨c, rfl⟩
    | ok v => exact ⟨c || true, rfl⟩
  | crctab => exact fun c s => ⟨c || true, rfl⟩
  | asciiEnc => exact ignoresTable_withIn fun f => ignoresTable_outOrRaise _
  | asciiDec =>
    unfold bodyOf bodyAsciiDec
    exact ignoresTable_withIn fun f c s => ignoresTable_outOrRaise _ c s
  | asciiFrame => exact ignoresTable_framer _
  | rtuEnc => exact ignoresTable_withIn fun f => ignoresTable_noteTable (ignoresTable_outOrRaise _) _
  | rtuDec => exact ignoresTable_withIn fun f => ignoresTable_noteTable (ignoresTable_outOrRaise _) _
  | rtuEst req =>
    unfold bodyOf bodyRtuEst
    refine ignoresTable_withIn fun f c s => ⟨c, ?_⟩
    cases estimate req f <;> rfl
  | rtuFrame req => exact ignoresTable_framer _
  | tcpEnc =>
    unfold bodyOf bodyTcpEnc
    exact ignoresTable_withIn fun f c s => ignoresTable_outOrRaise _ c s
  | tcpValid xseq xunit =>
    unfold bodyOf bodyTcpValid
    refine ignoresTable_withIn fun f c s => ⟨c, ?_⟩
    rw [State.seqPair_setTable, State.xunit_setTable]
    cases tcpValid f (if xseq then some s.seqPair else none) (if xunit then some s.xunit else none) <;> rfl
  | tcpDec =>
    unfold bodyOf bodyTcpDec
    refine ignoresTable_withIn fun f c s => ⟨c, ?_⟩
    cases tcpDec f <;> rfl
  | tcpFrame => exact ignoresTable_framer _
  | txnClear => exact ignoresTable_withTxn fun c s => ⟨c, rfl⟩
  | txnSetseq =>
    unfold bodyOf bodyTxnSetseq
    exact ignoresTable_withTxn (ignoresTable_withIn fun f c s => ⟨c, rfl⟩)
  | txnSetreq q =>
    unfold bodyOf bodyTxnSetreq
    exact ignoresTable_withTxn (ignoresTable_withBound (ignoresTable_withProto _ _ fun p c s =>
      ignoresTable_storeRequest p s.inBytes c s.readIn))
  | txnGetreq q =>
    unfold bodyOf bodyTxnGetreq
    exact ignoresTable_withTxn (ignoresTable_withProto _ _ fun p c s => ignoresTable_renderAdu p s.txn.reqAdu c s)
  | txnSetrsp q =>
    unfold bodyOf bodyTxnSetrsp
    refine ignoresTable_withTxn (ignoresTable_withBound (ignoresTable_withProto _ _ fun p c s => ?_))
    cases p with
    | ascii => exact ignoresTable_setrspSerial .ascii s.inBytes c s.readIn
    | rtu => exact ignoresTable_setrspSerial .rtu s.inBytes c s.readIn
    | tcp => exact ignoresTable_setrspTcp s.inBytes c s.readIn
  | txnGetrsp q =>
    unfold bodyOf bodyTxnGetrsp
    exact ignoresTable_withTxn (ignoresTable_withProto _ _ fun p c s => ignoresTable_renderAdu p s.txn.rspAdu c s)
  | txnNorsp q =>
    unfold bodyOf bodyTxnNorsp
    refine ignoresTable_withTxn (ignoresTable_withProto _ _ fun p c s => ?_)
    cases p with
    | ascii => exact ⟨c, rfl⟩
    | rtu => exact ⟨c, rfl⟩
    | tcp => exact ignoresTable_outOrRaise _ c ((s.setTxn _).tick 1)

/-- The epilogue and the posting of an error, with its draw, pass the flag through as the body does (R355). -/
theorem perform_setTable {b : Body} (h : b.IgnoresTable) (c : Bool) (s : State) :
    ∃ c', perform b (s.setTable c) = (perform b s).setTable c' := by
  obtain ⟨c', hbody⟩ := h c s.clearOutputs
  cases hb : b s.clearOutputs with
  | done t =>
    rw [hb] at hbody
    rw [perform_done hb, perform_done (s := s.setTable c) hbody]
    exact ⟨c', rfl⟩
  | raise r t =>
    rw [hb] at hbody
    rw [perform_raise hb, perform_raise (s := s.setTable c) hbody]
    exact ⟨c' || Config.freeBool t.draws, rfl⟩

end Sys2Proof.Machine

namespace Sys2Proof.Claims

open Sys2Proof.Machine

/-- Settles O14: a command is one `perform` of a body that passes the table flag through. -/
theorem tableFlagChangesNoResult : Obligations.TableFlagChangesNoResult := by
  unfold Obligations.TableFlagChangesNoResult
  intro i s t b h
  obtain ⟨c, hc⟩ := perform_setTable (ignoresTable_bodyOf i) b s
  rw [exec_next h]
  exact ⟨c, (exec_eq i _).trans (congrArg _ hc)⟩

/-- Settles O30: the bound check, then the LRC's own check, then the LRC as the negation of the byte sum. -/
theorem lrcResult : Obligations.LrcResult := by
  unfold Obligations.LrcResult
  intro s
  have hbody (hin : InWindow s) := bodyOf_inWindow (i := .lrc) (by rw [bodyOf, bodyLrc]) hin
  refine ⟨rfl, fun hin hlen => ?_, fun hin hlen => ?_, raises_of_not_inWindow (by rw [bodyOf, bodyLrc])⟩
  · specialize hbody hin
    rw [lrc_ok hlen] at hbody
    exact completes_of_body hbody
  · specialize hbody hin
    rw [lrc_short hlen] at hbody
    exact raises_of_body hbody rfl

/-- Settles O31: the LRC is the negation of the byte sum modulo 256. -/
theorem lrcCancelsByteSum : Obligations.LrcCancelsByteSum := by
  unfold Obligations.LrcCancelsByteSum
  intro x hlen
  refine ⟨lrcOf x, lrc_ok hlen, ?_, rfl⟩
  unfold lrcOf
  rw [BitVec.toNat_ofNat]
  omega

/-- Settles O32: the bound check, then the CRC's own check, then the table-driven loop from SEED. -/
theorem crcResult : Obligations.CrcResult := by
  unfold Obligations.CrcResult
  intro s
  have hbody (hin : InWindow s) := bodyOf_inWindow (i := .crc16) (by rw [bodyOf, bodyCrc16]) hin
  refine ⟨rfl, fun hin hlen => ?_, fun hin hlen => ?_, raises_of_not_inWindow (by rw [bodyOf, bodyCrc16])⟩
  · specialize hbody hin
    rw [State.readIn_opnd, State.clearOutputs_opnd, crc16_ok _ hlen, foldl_crcByte_eq_crcOf] at hbody
    dsimp only at hbody
    rw [State.noteTable_true] at hbody
    exact completes_of_body hbody
  · specialize hbody hin
    rw [crc16_short _ hlen] at hbody
    exact raises_of_body hbody rfl

/-- Settles O33: byte by byte, the table entry is eight shifts. -/
theorem crcSerialFormAgrees : Obligations.CrcSerialFormAgrees := by
  unfold Obligations.CrcSerialFormAgrees
  intro x seed
  split_ifs with hlen
  · exact crc16_short seed hlen
  · rw [crc16_ok seed (by omega), foldl_crcByte_eq_crcSerial]

/-- Settles O34: each appended byte of the CRC cancels the low byte of what is left. -/
theorem crcZeroResidue : Obligations.CrcZeroResidue := by
  unfold Obligations.CrcZeroResidue
  intro x c hlen hc
  rw [crc16_ok _ hlen] at hc
  rw [crc16_ok _ (by rw [List.length_append]; omega)]
  exact congrArg _ (foldl_crcByte_append_wire _ c x (Except.ok.inj hc))

/-- Settles O35: CRCTAB checks nothing, and its table entry is eight shifts of TIDX. -/
theorem crctabResult : Obligations.CrctabResult := by
  unfold Obligations.CrctabResult
  intro s
  have hbody : bodyOf .crctab s.clearOutputs = .done ((s.clearOutputs.noteTable true).setResult (crcTable s.tidx)) := rfl
  rw [State.noteTable_true, crcTable_eq_shift8, State.tidx_setWidth] at hbody
  exact ⟨rfl, completes_of_body hbody⟩

end Sys2Proof.Claims

/-! # The rules of 42_ascii: the codec, the scan of ASCII_FRAME, and the commands of the ASC unit

The decoder is followed from the text to the bytes: the body lies between ':' and the terminator (`slice_of_bodyOf`), its
digits are read in pairs (`unhex_eq_some_iff`), and the last byte is checked (`checkLrc`). The round trip is the case of the
text that the encoder writes. The scan of ASCII_FRAME finds exactly the frames that begin at the first ':' of their line
(`mem_asciiScan_frames_iff`). -/

namespace Sys2Proof.Machine

/-! ### The encoder (R181, R182) -/

/-- The digit of a nibble is its entry in the list of digits (R181). -/
theorem hexDigit_eq_getD {v : Byte} (h : v.toNat < 16) : hexDigit v = Claims.digits.getD v.toNat 0 := by
  revert v; decide

theorem hexU_eq_hexText (s : List Byte) : hexU s = Claims.hexText s := by
  refine congrArg s.flatMap (funext fun b => ?_)
  have hhigh : (b >>> 4).toNat = b.toNat / 16 := Nat.shiftRight_eq_div_pow _ 4
  have hlow : (b &&& 0x0F).toNat = b.toNat % 16 := Nat.and_two_pow_sub_one_eq_mod _ 4
  rw [hexDigit_eq_getD (by omega), hexDigit_eq_getD (by omega), hhigh, hlow]

theorem asciiEnc_ok {s : List Byte} (h : 2 ≤ s.length) :
    asciiEnc s = .ok ([0x3A] ++ Claims.hexText s ++ Claims.hexText [Claims.lrcOf s] ++ [0x0D, 0x0A]) := by
  rw [asciiEnc, lrc_ok h, ← hexU_eq_hexText, ← hexU_eq_hexText]
  rfl

theorem asciiEnc_short {s : List Byte} (h : s.length < 2) : asciiEnc s = .error .short := by
  rw [asciiEnc, lrc_short h]

/-! ### Hex digits, and hex text as bytes (R183, R185) -/

/-- A hex digit of the statements has a value below 16, and `hv` gives it (R183). -/
theorem hv_of_hexDigit {lower : Bool} {c : Byte} {v : Nat} (h : Claims.HexDigit lower c v) :
    v < 16 ∧ hv lower c = some (BitVec.ofNat 8 v) := by
  rcases h with h | ⟨rfl, hge, h⟩
  · obtain ⟨hlen, rfl⟩ := List.getElem?_eq_some_iff.1 h
    refine ⟨hlen, ?_⟩
    have hall : ∀ (lower : Bool) (v : Fin 16), hv lower Claims.digits[v] = some (BitVec.ofNat 8 v) := by decide
    exact hall lower ⟨v, hlen⟩
  · obtain ⟨hlen, rfl⟩ := List.getElem?_eq_some_iff.1 h
    have hlt : v - 10 < 6 := hlen
    have hall : ∀ k : Fin 6, hv true Claims.lowerDigits[k] = some (BitVec.ofNat 8 (k + 10)) := by decide
    have hlower := hall ⟨v - 10, hlt⟩
    simp only [Nat.sub_add_cancel hge] at hlower
    exact ⟨by omega, hlower⟩

/-- In a list of consecutive characters, a character stands at its distance from the first. -/
theorem getElem?_of_consecutive {l : List Byte} {first n : Nat} {c : Byte}
    (hl : ∀ k : Fin n, l[k.val]? = some (BitVec.ofNat 8 (first + k))) (hge : first ≤ c.toNat) (hlt : c.toNat < first + n) :
    l[c.toNat - first]? = some c := by
  rw [hl ⟨c.toNat - first, by omega⟩, Nat.add_sub_cancel' hge, BitVec.ofNat_toNat, BitVec.setWidth_eq]

/-- What `hv` gives is the digit's value (R183). -/
theorem hexDigit_of_hv {lower : Bool} {c b : Byte} (h : hv lower c = some b) : Claims.HexDigit lower c b.toNat := by
  unfold hv at h
  split_ifs at h with hdec hup hlow <;> cases h
  · have hval : (c - 0x30).toNat = c.toNat - 0x30 := by bv_omega
    rw [hval]
    exact .inl (getElem?_of_consecutive (n := 10) (by decide) hdec.1 (by omega))
  · have hval : (c - 0x41 + 10).toNat = 10 + (c.toNat - 0x41) := by bv_omega
    rw [hval]
    left
    rw [← List.getElem?_drop]
    exact getElem?_of_consecutive (n := 6) (by decide) hup.1 (by omega)
  · obtain ⟨hlower, hge, hle⟩ := hlow
    have hval : (c - 0x61 + 10).toNat = 10 + (c.toNat - 0x61) := by bv_omega
    rw [hval]
    refine .inr ⟨hlower, Nat.le_add_right _ _, ?_⟩
    rw [Nat.add_sub_cancel_left]
    exact getElem?_of_consecutive (n := 6) (by decide) hge (by omega)

/-- Two digits make a byte, high nibble first: in the model's bytes and in the statements' numbers (R185). -/
theorem exists_hv_pair_iff {lower : Bool} {a b e : Byte} :
    (∃ hi lo, hv lower a = some hi ∧ hv lower b = some lo ∧ e = 16 * hi + lo) ↔
    ∃ hi lo, Claims.HexDigit lower a hi ∧ Claims.HexDigit lower b lo ∧ e.toNat = 16 * hi + lo := by
  constructor
  · rintro ⟨hi, lo, ha, hb, rfl⟩
    have hhi := hexDigit_of_hv ha
    have hlo := hexDigit_of_hv hb
    have hhi' := (hv_of_hexDigit hhi).1
    have hlo' := (hv_of_hexDigit hlo).1
    exact ⟨hi.toNat, lo.toNat, hhi, hlo, by bv_omega⟩
  · rintro ⟨hi, lo, ha, hb, he⟩
    obtain ⟨hhi, ha⟩ := hv_of_hexDigit ha
    obtain ⟨hlo, hb⟩ := hv_of_hexDigit hb
    exact ⟨_, _, ha, hb, by bv_omega⟩

/-- One turn of the hex loop (R185). -/
theorem unhex_cons_cons_iff {lower : Bool} {a b e : Byte} {rest d : List Byte} :
    unhex lower (a :: b :: rest) = some (e :: d) ↔
    (∃ hi lo, hv lower a = some hi ∧ hv lower b = some lo ∧ e = 16 * hi + lo) ∧ unhex lower rest = some d := by
  rw [unhex]
  cases hv lower a <;> cases hv lower b <;> cases unhex lower rest <;> simp [eq_comm]

/-- The text of a byte sequence begins with the two digits of its first byte (R185). -/
theorem hexOf_cons_iff {lower : Bool} {a b e : Byte} {rest d : List Byte} :
    Claims.HexOf lower (a :: b :: rest) (e :: d) ↔
    (∃ hi lo, Claims.HexDigit lower a hi ∧ Claims.HexDigit lower b lo ∧ e.toNat = 16 * hi + lo) ∧
      Claims.HexOf lower rest d := by
  unfold Claims.HexOf
  constructor
  · rintro ⟨hlen, hpairs⟩
    refine ⟨?_, by simp at hlen; omega, fun k hk => ?_⟩
    · obtain ⟨hi, lo, c1, c2, h1, h2, h⟩ := hpairs 0 (Nat.succ_pos _)
      cases h1; cases h2
      exact ⟨hi, lo, h⟩
    · exact hpairs (k + 1) (Nat.succ_lt_succ hk)
  · rintro ⟨⟨hi, lo, h⟩, hlen, hpairs⟩
    refine ⟨by simp; omega, fun k hk => ?_⟩
    cases k with
    | zero => exact ⟨hi, lo, a, b, rfl, rfl, h⟩
    | succ k => exact hpairs k (Nat.lt_of_succ_lt_succ hk)

/-- The hex loop decodes exactly the hex text of a byte sequence (R185). -/
theorem unhex_eq_some_iff {lower : Bool} : ∀ {text d : List Byte}, unhex lower text = some d ↔ Claims.HexOf lower text d
  | [], d => by cases d <;> simp [unhex, Claims.HexOf]
  | [c], d => by
    have hodd : ¬Claims.HexOf lower [c] d := fun ⟨hlen, _⟩ => by
      rw [List.length_singleton] at hlen
      omega
    exact iff_of_false (fun h => nomatch h) hodd
  | a :: b :: rest, [] => by
    rw [unhex]
    cases hv lower a <;> cases hv lower b <;> cases unhex lower rest <;> simp [Claims.HexOf]
  | a :: b :: rest, e :: d => by
    rw [unhex_cons_cons_iff, exists_hv_pair_iff, hexOf_cons_iff, unhex_eq_some_iff]

/-- The upper-case text of a byte sequence is hex text, whether lower case is accepted or not (R187). -/
theorem hexOf_hexText (lower : Bool) (x : List Byte) : Claims.HexOf lower (Claims.hexText x) x := by
  induction x with
  | nil => exact ⟨rfl, fun k hk => absurd hk (Nat.not_lt_zero k)⟩
  | cons b x ih =>
    have hdigit {v : Nat} (hv : v < 16) : Claims.HexDigit lower (Claims.digits.getD v 0) v := by
      left
      rw [List.getD_eq_getElem?_getD, List.getElem?_eq_getElem (show v < Claims.digits.length from hv)]
      rfl
    exact hexOf_cons_iff.2 ⟨⟨b.toNat / 16, b.toNat % 16, hdigit (by omega), hdigit (by omega), by omega⟩, ih⟩

/-! ### The body of a frame (R184) -/

theorem stripEnd_crlf (x : List Byte) : stripEnd (x ++ [0x0D, 0x0A]) = x.length := by
  simp [stripEnd, chCr, chLf]

/-- One terminator character, which is not the LF of a CR LF (R184). -/
theorem stripEnd_one {x : List Byte} {t : Byte} (ht : t = 0x0D ∨ t = 0x0A)
    (hx : ¬(t = 0x0A ∧ x.getLast? = some 0x0D)) : stripEnd (x ++ [t]) = x.length := by
  have hcrlf : ¬(2 ≤ (x ++ [t]).length ∧ (x ++ [t])[(x ++ [t]).length - 2]? = some chCr ∧
      (x ++ [t])[(x ++ [t]).length - 1]? = some chLf) := by
    rintro ⟨hlen, hcr, hlf⟩
    rw [List.length_append, List.length_singleton] at hlen hcr hlf
    refine hx ⟨by simpa [chLf] using hlf, ?_⟩
    rw [List.getLast?_eq_getElem?]
    rwa [List.getElem?_append_left (by omega)] at hcr
  unfold stripEnd
  dsimp only
  rw [if_neg hcrlf, if_pos (by simpa [chCr, chLf] using ht)]
  simp

theorem stripEnd_none {x : List Byte} (hcr : x.getLast? ≠ some 0x0D) (hlf : x.getLast? ≠ some 0x0A) :
    stripEnd x = x.length := by
  rw [List.getLast?_eq_getElem?] at hcr hlf
  unfold stripEnd
  dsimp only
  rw [if_neg fun ⟨_, _, h⟩ => hlf h, if_neg fun h => h.elim hcr hlf]

/-- The part of a frame that the decoder reads is the statements' body (R184, R185). -/
theorem slice_of_bodyOf {f body : List Byte} (h : Claims.BodyOf f body) : slice f 1 (stripEnd f) = body := by
  have hcut (tail : List Byte) : slice ([0x3A] ++ body ++ tail) 1 ([0x3A] ++ body).length = body := by
    simp [slice]
  have hlast {c : Byte} (hc : c ≠ 0x3A) (h : body.getLast? ≠ some c) : ([0x3A] ++ body).getLast? ≠ some c := by
    rw [List.singleton_append, List.getLast?_cons]
    cases hb : body.getLast? with
    | none => simpa using hc.symm
    | some d => simpa [hb] using h
  rcases h with rfl | ⟨t, ht, rfl, hlf⟩ | ⟨rfl, hcr, hlf⟩
  · rw [stripEnd_crlf]
    exact hcut _
  · rw [stripEnd_one ht fun h => hlast (by decide) (fun hcr => hlf ⟨h.1, hcr⟩) h.2]
    exact hcut _
  · rw [stripEnd_none (hlast (by decide) hcr) (hlast (by decide) hlf)]
    simpa using hcut []

theorem head?_of_bodyOf {f body : List Byte} (h : Claims.BodyOf f body) : f.head? = some 0x3A := by
  rcases h with rfl | ⟨t, -, rfl, -⟩ | ⟨rfl, -⟩ <;> rfl

/-- Every text that begins with ':' has a body (R184). -/
theorem exists_bodyOf {f : List Byte} (h : f.head? = some 0x3A) : ∃ body, Claims.BodyOf f body := by
  obtain ⟨g, rfl⟩ : ∃ g, f = 0x3A :: g := by
    cases f with
    | nil => cases h
    | cons a g => cases h; exact ⟨g, rfl⟩
  rcases List.eq_nil_or_concat g with rfl | ⟨g, t, rfl⟩
  · exact ⟨[], .inr (.inr ⟨rfl, by decide, by decide⟩)⟩
  by_cases hcrlf : t = 0x0A ∧ g.getLast? = some 0x0D
  · obtain ⟨rfl, hcr⟩ := hcrlf
    obtain ⟨body, rfl⟩ := List.getLast?_eq_some_iff.1 hcr
    exact ⟨body, .inl (by simp)⟩
  by_cases ht : t = 0x0D ∨ t = 0x0A
  · exact ⟨g, .inr (.inl ⟨t, ht, by simp, hcrlf⟩)⟩
  · rw [not_or] at ht
    exact ⟨g ++ [t], .inr (.inr ⟨by simp, by simpa using ht.1, by simpa using ht.2⟩)⟩

/-! ### The decoder (R185) -/

/-- The decoder's last two checks, SHORT and LRC, on the bytes of the body (R185). -/
def checkLrc (d : List Byte) : Except Reason (List Byte) :=
  if d.length < 3 then .error .short
  else if d.getLast? = some (Claims.lrcOf d.dropLast) then .ok d.dropLast else .error .lrc

/-- The decoder after the check of the leading ':', on the body: ODD, HEX, SHORT and LRC (R185). -/
def decodeBody (lower : Bool) (body : List Byte) : Except Reason (List Byte) :=
  if body.length % 2 = 1 then .error .odd else (unhex lower body).elim (.error .hex) checkLrc

theorem asciiDec_start {lower : Bool} {f : List Byte} (h : f.head? ≠ some 0x3A) : asciiDec lower f = .error .start := by
  rw [List.head?_eq_getElem?] at h
  rw [asciiDec, if_pos (.inr h)]

/-- The decoder of a text that begins with ':' (R185). -/
theorem asciiDec_eq_decodeBody {lower : Bool} {f : List Byte} (h : f.head? = some 0x3A) :
    asciiDec lower f = decodeBody lower (slice f 1 (stripEnd f)) := by
  have hne : f.length ≠ 0 := fun h0 => by rw [List.length_eq_zero_iff.1 h0] at h; cases h
  rw [List.head?_eq_getElem?] at h
  unfold asciiDec decodeBody
  rw [if_neg (by rw [not_or]; exact ⟨hne, not_not.2 h⟩)]
  dsimp only
  split_ifs
  · rfl
  cases unhex lower (slice f 1 (stripEnd f)) with
  | none => rfl
  | some d =>
    rw [Option.elim_some, checkLrc]
    dsimp only
    by_cases hlen : d.length < 3
    · rw [if_pos hlen, if_pos hlen]
    · have hsum := lrc_ok (s := d.dropLast) (by rw [List.length_dropLast]; omega)
      rw [if_neg hlen, if_neg hlen, ← List.dropLast_eq_take, hsum, ← List.getLast?_eq_getElem?]
      exact ite_not _ _ _

theorem asciiDec_of_bodyOf {lower : Bool} {f body : List Byte} (h : Claims.BodyOf f body) :
    asciiDec lower f = decodeBody lower body := by
  rw [asciiDec_eq_decodeBody (head?_of_bodyOf h), slice_of_bodyOf h]

theorem decodeBody_odd {lower : Bool} {body : List Byte} (h : body.length % 2 = 1) :
    decodeBody lower body = .error .odd := if_pos h

theorem decodeBody_hex {lower : Bool} {body : List Byte} (heven : body.length % 2 = 0)
    (h : ¬∃ d, Claims.HexOf lower body d) : decodeBody lower body = .error .hex := by
  have hnone : unhex lower body = none := Option.eq_none_iff_forall_ne_some.2 fun d hd => h ⟨d, unhex_eq_some_iff.1 hd⟩
  rw [decodeBody, if_neg (by omega), hnone, Option.elim_none]

theorem decodeBody_digits {lower : Bool} {body d : List Byte} (h : Claims.HexOf lower body d) :
    decodeBody lower body = checkLrc d := by
  have heven := h.1
  rw [decodeBody, if_neg (by omega), unhex_eq_some_iff.2 h, Option.elim_some]

theorem checkLrc_short {d : List Byte} (h : d.length < 3) : checkLrc d = .error .short := if_pos h

theorem checkLrc_concat {d : List Byte} (l : Byte) (h : 2 ≤ d.length) :
    checkLrc (d ++ [l]) = if l = Claims.lrcOf d then .ok d else .error .lrc := by
  have hlen : ¬(d ++ [l]).length < 3 := by rw [List.length_append, List.length_singleton]; omega
  rw [checkLrc, if_neg hlen, List.dropLast_concat, List.getLast?_concat]
  simp only [Option.some.injEq]

/-- The decoder has five errors (R185). -/
theorem error_mem_of_asciiDec {lower : Bool} {f : List Byte} {e : Reason} (h : asciiDec lower f = .error e) :
    e ∈ [Reason.start, .odd, .hex, .short, .lrc] := by
  by_cases hhead : f.head? = some 0x3A
  · rw [asciiDec_eq_decodeBody hhead, decodeBody] at h
    split_ifs at h
    · cases h; decide
    cases hu : unhex lower (slice f 1 (stripEnd f)) with
    | none => rw [hu] at h; cases h; decide
    | some d =>
      rw [hu, Option.elim_some, checkLrc] at h
      split_ifs at h <;> cases h <;> decide
  · rw [asciiDec_start hhead] at h
    cases h; decide

/-! ### Positions of a list -/

theorem not_mem_drop_iff {b : List Byte} {x : Byte} {n : Nat} : x ∉ b.drop n ↔ ∀ k, n ≤ k → b[k]? ≠ some x := by
  rw [List.mem_iff_getElem?, not_exists]
  simp only [List.getElem?_drop]
  constructor
  · intro h k hk
    rw [← Nat.add_sub_cancel' hk]
    exact h _
  · exact fun h k => h _ (Nat.le_add_right _ _)

theorem not_mem_take_iff {b : List Byte} {x : Byte} {n : Nat} : x ∉ b.take n ↔ ∀ k, k < n → b[k]? ≠ some x := by
  rw [List.mem_iff_getElem?, not_exists]
  refine forall_congr' fun k => ?_
  rw [List.getElem?_take]
  split_ifs with hk
  · exact ⟨fun h _ => h, fun h => h hk⟩
  · exact ⟨fun _ h => absurd h hk, fun _ h => nomatch h⟩

/-- `find` over the whole buffer (R14). -/
theorem find_eq_none_iff {b : List Byte} {x : Byte} : find b x 0 b.length = none ↔ x ∉ b := by
  constructor
  · intro h hx
    obtain ⟨k, hk⟩ := List.mem_iff_getElem?.1 hx
    exact find_none h k (Nat.zero_le k) (List.getElem?_eq_some_iff.1 hk).1 hk
  · intro h
    cases hf : find b x 0 b.length with
    | none => rfl
    | some i =>
      obtain ⟨-, -, hi, -⟩ := find_some hf
      exact absurd (List.mem_of_getElem? hi) h

/-! ### The frames of a buffer (R190, R191) -/

/-- The frame `f` of a line: it begins with ':' and ends with an LF, the only one in it; and an LF stands between it and
every earlier ':', so its ':' is the first of the line (R190). -/
structure LineFrame (b : List Byte) (f : Nat × Nat) : Prop where
  two_le : 2 ≤ f.2
  colon : b[f.1]? = some chColon
  lf : b[f.1 + f.2 - 1]? = some chLf
  inner : ∀ k, f.1 ≤ k → k < f.1 + f.2 - 1 → b[k]? ≠ some chLf
  first : ∀ k, k < f.1 → b[k]? = some chColon → ∃ m, k < m ∧ m < f.1 ∧ b[m]? = some chLf

/-- No position holds two characters. -/
theorem ne_of_colon_of_lf {b : List Byte} {i j : Nat} (hi : b[i]? = some chColon) (hj : b[j]? = some chLf) : i ≠ j := by
  rintro rfl
  rw [hi] at hj
  exact absurd hj (by decide)

/-- A frame begins in another one only if it is the same frame. -/
theorem LineFrame.eq_of_start_in {b : List Byte} {f g : Nat × Nat} (hf : LineFrame b f) (hg : LineFrame b g)
    (hle : f.1 ≤ g.1) (hlt : g.1 < f.1 + f.2) : f = g := by
  have hf2 := hf.two_le
  have hg2 := hg.two_le
  have hstart : f.1 = g.1 := by
    by_contra hne
    obtain ⟨m, hm1, hm2, hm⟩ := hg.first f.1 (by omega) hf.colon
    exact hf.inner m (by omega) (by omega) hm
  have hend : f.1 + f.2 - 1 = g.1 + g.2 - 1 := by
    rcases Nat.lt_trichotomy (f.1 + f.2 - 1) (g.1 + g.2 - 1) with h | h | h
    · exact absurd hf.lf (hg.inner _ (by omega) h)
    · exact h
    · exact absurd hg.lf (hf.inner _ (by omega) h)
  exact Prod.ext hstart (by omega)

/-- The bytes of a frame (R191). -/
theorem LineFrame.exists_mid {b : List Byte} {f : Nat × Nat} (h : LineFrame b f) :
    ∃ mid, Claims.cut b f = [0x3A] ++ mid ++ [0x0A] ∧ 0x0A ∉ mid ∧ f.2 = mid.length + 2 := by
  obtain ⟨a, len⟩ := f
  obtain ⟨n, rfl⟩ : ∃ n, len = n + 2 := ⟨len - 2, (Nat.sub_add_cancel h.two_le).symm⟩
  have hlf : (b.drop (a + 1))[n]? = some 0x0A := by
    rw [List.getElem?_drop, Nat.add_right_comm]
    exact h.lf
  obtain ⟨ha, hcolon⟩ := List.getElem?_eq_some_iff.1 h.colon
  refine ⟨(b.drop (a + 1)).take n, ?_, ?_, ?_⟩
  · show (b.drop a).take (n + 1 + 1) = _
    rw [List.drop_eq_getElem_cons ha, List.take_succ_cons, List.take_add_one, hlf, hcolon]
    rfl
  · rw [not_mem_take_iff]
    intro k hk
    rw [List.getElem?_drop]
    exact h.inner _ (by dsimp only; omega) (by dsimp only; omega)
  · have hn := (List.getElem?_eq_some_iff.1 hlf).1
    show n + 2 = _
    rw [List.length_take]
    omega

/-- A line with a ':' has a frame: from the line's first ':' to its LF (R190). -/
theorem lineFrame_of_line {before junk rest after : List Byte} (hbefore : before = [] ∨ before.getLast? = some chLf)
    (hjunk : chColon ∉ junk) (hrest : chLf ∉ rest) :
    LineFrame (before ++ junk ++ [chColon] ++ rest ++ [chLf] ++ after) (before.length + junk.length, rest.length + 2) := by
  obtain ⟨lead, hlead⟩ : ∃ lead, before ++ junk = lead := ⟨_, rfl⟩
  have hlen : before.length + junk.length = lead.length := by rw [← hlead, List.length_append]
  have hbuf : before ++ junk ++ [chColon] ++ rest ++ [chLf] ++ after = lead ++ chColon :: (rest ++ chLf :: after) := by
    rw [hlead]; simp
  have hafter (i : Nat) : (lead ++ chColon :: (rest ++ chLf :: after))[lead.length + i]? =
      (chColon :: (rest ++ chLf :: after))[i]? := by
    rw [List.getElem?_append_right (Nat.le_add_right _ _), Nat.add_sub_cancel_left]
  rw [hbuf, hlen]
  refine ⟨Nat.le_add_left _ _, hafter 0, ?_, fun k hk1 hk2 => ?_, fun k hk hc => ?_⟩
  · refine (hafter (rest.length + 1)).trans ?_
    rw [List.getElem?_cons_succ, List.getElem?_append_right (Nat.le_refl _), Nat.sub_self]
    rfl
  · dsimp only at hk1 hk2
    obtain ⟨i, rfl⟩ := Nat.exists_eq_add_of_le hk1
    rw [hafter]
    cases i with
    | zero => exact fun h => absurd (Option.some.inj h) (by decide)
    | succ i =>
      rw [List.getElem?_cons_succ, List.getElem?_append_left (by omega)]
      exact fun h => hrest (List.mem_of_getElem? h)
  · dsimp only at hk
    rw [List.getElem?_append_left hk, ← hlead] at hc
    by_cases hkb : k < before.length
    · have hlf : before[before.length - 1]? = some chLf := by
        rw [← List.getLast?_eq_getElem?]
        exact hbefore.resolve_left (List.ne_nil_of_length_pos (by omega))
      rw [List.getElem?_append_left hkb] at hc
      have hne := ne_of_colon_of_lf hc hlf
      refine ⟨before.length - 1, by omega, by dsimp only; omega, ?_⟩
      rwa [List.getElem?_append_left (by omega), ← hlead, List.getElem?_append_left (by omega)]
    · rw [List.getElem?_append_right (Nat.le_of_not_lt hkb)] at hc
      exact absurd (List.mem_of_getElem? hc) hjunk

/-! ### The loop of ASCII_FRAME (R190) -/

/-- Where the loop stands when it has scanned the buffer up to `p`: it has the frames that end there, in order, and DROP
says whether a byte lies in none of them. -/
structure ScannedTo (b : List Byte) (p : Nat) (fs : List (Nat × Nat)) (drop : Bool) : Prop where
  le : p ≤ b.length
  mem_iff : ∀ f, f ∈ fs ↔ LineFrame b f ∧ f.1 + f.2 ≤ p
  ordered : fs.Pairwise (fun f g => f.1 + f.2 ≤ g.1)
  closed : ∀ k, k < p → b[k]? = some chColon → ∃ m, k < m ∧ m < p ∧ b[m]? = some chLf
  drop_iff : drop = true ↔ ∃ i, i < p ∧ ∀ f ∈ fs, ¬Claims.Covers f i
  start_of_nil : fs = [] → b[p]? = some chColon ∧ ∀ k, k < p → b[k]? ≠ some chColon
  lf_before : fs ≠ [] → ∃ q, p = q + 1 ∧ b[q]? = some chLf

/-- The loop's first position: the buffer's first ':' (R190). -/
theorem scannedTo_first {b : List Byte} {p : Nat} (h : find b chColon 0 b.length = some p) :
    ScannedTo b p [] (decide (p > 0)) := by
  obtain ⟨-, hp, hcolon, hfirst⟩ := find_some h
  refine ⟨hp.le, fun f => ⟨fun hf => (nomatch hf), fun ⟨hf, hend⟩ => ?_⟩, .nil,
    fun k hk hc => absurd hc (hfirst k (Nat.zero_le k) hk), ?_, fun _ => ⟨hcolon, fun k => hfirst k (Nat.zero_le k)⟩,
    fun h => absurd rfl h⟩
  · have hlen := hf.two_le
    exact absurd hf.colon (hfirst f.1 (Nat.zero_le _) (by omega))
  · rw [decide_eq_true_iff]
    exact ⟨fun h0 => ⟨0, h0, fun f hf => (nomatch hf)⟩, fun ⟨i, hi, _⟩ => by omega⟩

section Turn

variable {b : List Byte} {p j : Nat} {fs : List (Nat × Nat)} {drop : Bool}

/-- Every ':' up to an LF is followed by one. -/
theorem exists_lf_after_colon (hj : b[j]? = some chLf) (k : Nat) (hk : k < j + 1) (hc : b[k]? = some chColon) :
    ∃ m, k < m ∧ m < j + 1 ∧ b[m]? = some chLf :=
  have hne := ne_of_colon_of_lf hc hj
  ⟨j, by omega, Nat.lt_succ_self j, hj⟩

/-- The frame of a line that ends at `j`, the first LF from `p` on, is already found or begins in this line. -/
theorem ScannedTo.mem_or_start_ge (h : ScannedTo b p fs drop) (hj : ∀ k, p ≤ k → k < j → b[k]? ≠ some chLf) {f : Nat × Nat}
    (hf : LineFrame b f) (hend : f.1 + f.2 ≤ j + 1) : f ∈ fs ∨ (p ≤ f.1 ∧ f.1 + f.2 = j + 1) := by
  rw [h.mem_iff, or_iff_not_imp_left, not_and, Nat.not_le]
  intro hlate
  replace hlate := hlate hf
  have hlen := hf.two_le
  have hlast : f.1 + f.2 = j + 1 := by
    by_contra hne
    exact hj (f.1 + f.2 - 1) (by omega) (by omega) hf.lf
  refine ⟨?_, hlast⟩
  by_contra hlt
  obtain ⟨m, hm1, hm2, hm⟩ := h.closed f.1 (by omega) hf.colon
  exact hf.inner m (by omega) (by omega) hm

/-- A line without a ':' is dropped (R190). -/
theorem ScannedTo.dropLine (h : ScannedTo b p fs drop) (hj : find b chLf p b.length = some j)
    (hs : find b chColon p (j + 1) = none) : ScannedTo b (j + 1) fs true := by
  obtain ⟨hpj, hjb, hlf, hbefore⟩ := find_some hj
  have hcolon := find_none hs
  have hne : fs ≠ [] := fun h0 => hcolon p (Nat.le_refl p) (by omega) (h.start_of_nil h0).1
  refine ⟨hjb, fun f => ⟨fun hf => ?_, fun ⟨hf, hend⟩ => ?_⟩, h.ordered, exists_lf_after_colon hlf, ?_,
    fun h0 => absurd h0 hne, fun _ => ⟨j, rfl, hlf⟩⟩
  · obtain ⟨hframe, hend⟩ := (h.mem_iff f).1 hf
    exact ⟨hframe, by omega⟩
  · have hlen := hf.two_le
    exact (h.mem_or_start_ge hbefore hf hend).resolve_right fun ⟨hge, hlast⟩ => hcolon f.1 hge (by omega) hf.colon
  · refine ⟨fun _ => ⟨p, by omega, fun f hf hcov => ?_⟩, fun _ => rfl⟩
    have hend := ((h.mem_iff f).1 hf).2
    have hin := hcov.2
    omega

/-- The first ':' of a line from `p` on and the line's LF bound a frame (R190). -/
theorem ScannedTo.lineFrame (h : ScannedTo b p fs drop) {s : Nat} (hj : find b chLf p b.length = some j)
    (hs : find b chColon p (j + 1) = some s) : LineFrame b (s, j - s + 1) := by
  obtain ⟨hpj, -, hlf, hbefore⟩ := find_some hj
  obtain ⟨hps, hsj, hcolon, hfirst⟩ := find_some hs
  have hne := ne_of_colon_of_lf hcolon hlf
  have hlast : s + (j - s + 1) - 1 = j := by omega
  refine ⟨by dsimp only; omega, hcolon, (congrArg (b[·]?) hlast).trans hlf, fun k hk1 hk2 => ?_, fun k hk hc => ?_⟩
  · exact hbefore k (hps.trans hk1) (hlast ▸ hk2)
  · have hkp : k < p := by
      by_contra hkp
      exact hfirst k (Nat.le_of_not_lt hkp) hk hc
    obtain ⟨m, hm1, hm2, hm⟩ := h.closed k hkp hc
    exact ⟨m, hm1, Nat.lt_of_lt_of_le hm2 hps, hm⟩

/-- A frame from `s` to `j` leaves uncovered what was uncovered before `p`, and the bytes from `p` to `s`. -/
theorem exists_uncovered_snoc_iff {s : Nat} (hends : ∀ f ∈ fs, f.1 + f.2 ≤ p) (hps : p ≤ s) (hsj : s ≤ j) :
    (∃ i, i < j + 1 ∧ ∀ f ∈ fs ++ [(s, j - s + 1)], ¬Claims.Covers f i) ↔
      (∃ i, i < p ∧ ∀ f ∈ fs, ¬Claims.Covers f i) ∨ s > p := by
  have hcovers (i : Nat) : Claims.Covers (s, j - s + 1) i ↔ s ≤ i ∧ i < j + 1 := by
    rw [Claims.Covers, show s + (j - s + 1) = j + 1 by omega]
  simp only [List.forall_mem_append, List.forall_mem_singleton, hcovers]
  constructor
  · rintro ⟨i, hi, hold, hnew⟩
    by_cases hip : i < p
    · exact .inl ⟨i, hip, hold⟩
    · right
      omega
  · rintro (⟨i, hi, hold⟩ | hgt)
    · exact ⟨i, by omega, hold, by omega⟩
    · exact ⟨p, by omega, fun f hf ⟨_, hin⟩ => Nat.not_lt.2 (hends f hf) hin, by omega⟩

/-- A line with a ':' gives the frame from its first ':' to its LF (R190). -/
theorem ScannedTo.addFrame {s : Nat} (h : ScannedTo b p fs drop) (hj : find b chLf p b.length = some j)
    (hs : find b chColon p (j + 1) = some s) :
    ScannedTo b (j + 1) (fs ++ [(s, j - s + 1)]) (drop || decide (s > p)) := by
  have hframe := h.lineFrame hj hs
  obtain ⟨hpj, hjb, hlf, hbefore⟩ := find_some hj
  obtain ⟨hps, hsj, -, hfirst⟩ := find_some hs
  have hends (f : Nat × Nat) (hf : f ∈ fs) : f.1 + f.2 ≤ p := ((h.mem_iff f).1 hf).2
  refine ⟨hjb, fun f => ?_, ?_, exists_lf_after_colon hlf, ?_, fun h0 => absurd h0 (by simp), fun _ => ⟨j, rfl, hlf⟩⟩
  · rw [List.mem_append, List.mem_singleton]
    constructor
    · rintro (hf | rfl)
      · obtain ⟨hline, hend⟩ := (h.mem_iff f).1 hf
        exact ⟨hline, by omega⟩
      · exact ⟨hframe, by dsimp only; omega⟩
    · rintro ⟨hf, hend⟩
      refine (h.mem_or_start_ge hbefore hf hend).imp_right fun ⟨hge, hlast⟩ => ?_
      have hlen := hf.two_le
      have hsf : s ≤ f.1 := by
        by_contra hlt
        exact hfirst f.1 hge (by omega) hf.colon
      exact (hframe.eq_of_start_in hf hsf (by dsimp only; omega)).symm
  · refine List.pairwise_append.2 ⟨h.ordered, List.pairwise_singleton _ _, fun f hf g hg => ?_⟩
    rw [List.mem_singleton.1 hg]
    exact (hends f hf).trans hps
  · rw [Bool.or_eq_true, h.drop_iff, decide_eq_true_iff]
    exact (exists_uncovered_snoc_iff hends hps (by omega)).symm

end Turn

/-- The loop stops where no LF is left; with more turns than bytes left it does not run out of them (R19, R190). -/
theorem scannedTo_asciiLoop {b : List Byte} {fuel p : Nat} {fs : List (Nat × Nat)} {drop : Bool}
    (h : ScannedTo b p fs drop) (hfuel : b.length < p + fuel) {c : Scan} (hc : asciiLoop b fuel p fs drop = c) :
    ScannedTo b c.stop c.frames c.drop ∧ c.none = false ∧ ∀ k, c.stop ≤ k → b[k]? ≠ some chLf := by
  induction fuel generalizing p fs drop with
  | zero => exact absurd h.le (by omega)
  | succ fuel ih =>
    unfold asciiLoop at hc
    split at hc
    · rename_i hj
      subst hc
      refine ⟨h, rfl, fun k hk hlf => find_none hj k hk ?_ hlf⟩
      exact (List.getElem?_eq_some_iff.1 hlf).1
    · rename_i j hj
      have hpj := (find_some hj).1
      split at hc
      · exact ih (h.dropLine hj ‹_›) (by omega) hc
      · exact ih (h.addFrame hj ‹_›) (by omega) hc

theorem asciiScan_of_no_colon {b : List Byte} (h : chColon ∉ b) :
    asciiScan b = { frames := [], stop := b.length, none := true, drop := decide (b.length > 0) } := by
  rw [asciiScan, find_eq_none_iff.2 h]

/-- What the scan has found in a buffer with a ':' (R190). -/
theorem scannedTo_asciiScan {b : List Byte} (h : chColon ∈ b) :
    ScannedTo b (asciiScan b).stop (asciiScan b).frames (asciiScan b).drop ∧ (asciiScan b).none = false ∧
      ∀ k, (asciiScan b).stop ≤ k → b[k]? ≠ some chLf := by
  cases hf : find b chColon 0 b.length with
  | none => exact absurd h (find_eq_none_iff.1 hf)
  | some p =>
    have hloop : asciiLoop b (b.length + 1) p [] (decide (p > 0)) = asciiScan b := by rw [asciiScan, hf]
    exact scannedTo_asciiLoop (scannedTo_first hf) (by omega) hloop

theorem asciiScan_none_iff (b : List Byte) : (asciiScan b).none = true ↔ chColon ∉ b := by
  by_cases h : chColon ∈ b
  · rw [(scannedTo_asciiScan h).2.1]
    exact ⟨fun h => (nomatch h), fun hno => absurd h hno⟩
  · rw [asciiScan_of_no_colon h]
    exact iff_of_true rfl h

/-- The scan's frames are the frames of the buffer's lines (R190). -/
theorem mem_asciiScan_frames_iff {b : List Byte} (h : chColon ∈ b) (f : Nat × Nat) :
    f ∈ (asciiScan b).frames ↔ LineFrame b f := by
  obtain ⟨hscan, -, hstop⟩ := scannedTo_asciiScan h
  refine (hscan.mem_iff f).trans (and_iff_left_of_imp fun hf => ?_)
  by_contra hlate
  exact hstop (f.1 + f.2 - 1) (by omega) hf.lf

/-- A frame that begins in a line, after `before` and not after the LF, is the frame of that line (R190). -/
theorem LineFrame.eq_of_start_in_line {before junk rest after : List Byte} {f : Nat × Nat}
    (hf : LineFrame (before ++ junk ++ [chColon] ++ rest ++ [chLf] ++ after) f)
    (hbefore : before = [] ∨ before.getLast? = some chLf) (hjunk : chColon ∉ junk) (hrest : chLf ∉ rest)
    (hge : before.length ≤ f.1) (hlt : f.1 < before.length + junk.length + rest.length + 2) :
    f = (before.length + junk.length, rest.length + 2) := by
  refine ((lineFrame_of_line hbefore hjunk hrest).eq_of_start_in hf ?_ (by dsimp only; omega)).symm
  by_contra hin
  dsimp only at hin
  have hcolon := hf.colon
  simp only [List.append_assoc] at hcolon
  rw [List.getElem?_append_right hge, List.getElem?_append_left (by omega)] at hcolon
  exact hjunk (List.mem_of_getElem? hcolon)

/-! ### What a command leaves when its body writes OUT (R355) -/

/-- A command completes with OUT if its body does, having written no more than RESULT, TBL_BUILT and the draws besides. -/
theorem completesOut_of_body {i : Instr} {s : State} {d : List Byte} {result : Half} {tbl : Bool} {n : Nat}
    (h : bodyOf i s.clearOutputs = .done (State.setOut
      { s with outs := { Claims.cleared with result := result }, tblBuilt := tbl, draws := n } d)) :
    Claims.CompletesOut i s d result tbl :=
  ⟨n, s.outBuf.writeList 0 d, by rw [exec_eq, perform_done h]; rfl, Memory.read_writeList_zero s.outBuf d⟩

/-! ### The framers (R190, R232, R275) -/

/-- What a framer posts in the result registers, from cleared ones (R40 to R42). -/
theorem setFrames_outs_of_cleared {s : State} (h : s.outs = Claims.cleared) (base : Nat) (b : List Byte) (c : Scan) :
    (s.setFrames base b c).outs = Claims.framerOutputs base b.length c := by
  unfold State.setFrames Claims.framerOutputs
  simp only [h, decide_eq_true_eq]
  rfl

/-- A framer's descriptors are read back by frame number; beyond them FDESC is as it was (R41). -/
theorem read_writeList_descriptors (m : Memory Word) (base : Nat) (frames : List (Nat × Nat)) (k : Nat) :
    (m.writeList 0 (frames.map fun f => descWord (base + f.1) f.2)).read k =
      (frames[k]?.map fun f => descWord (base + f.1) f.2).or (m.read k) := by
  rw [Memory.read_writeList_zero, List.length_map, List.getElem?_map]
  split_ifs with hk
  · rw [List.getElem?_eq_getElem hk]
    rfl
  · rw [List.getElem?_eq_none (Nat.le_of_not_lt hk)]
    rfl

/-- A framer in a window inside IN_BUF: it completes, and FDESC holds a descriptor for each frame of its scan. -/
theorem completesFrames_of_inWindow {i : Instr} {s : State} {scan : List Byte → Scan}
    (hi : bodyOf i = withIn (fun b s => .done (s.setFrames s.opnd.inOfs.toNat b (scan b)))) (h : Claims.InWindow s) :
    Claims.CompletesFrames i s (scan s.inBytes) := by
  have houts := setFrames_outs_of_cleared (s := s.clearOutputs.readIn) rfl s.opnd.inOfs.toNat s.inBytes (scan s.inBytes)
  refine ⟨s.draws + s.opnd.inLen.toNat, s.fdesc.writeList 0 _, ?_, fun k =>
    (read_writeList_descriptors s.fdesc s.opnd.inOfs.toNat (scan s.inBytes).frames k).trans ?_⟩
  · rw [exec_eq, perform_done (bodyOf_inWindow hi h), ← houts]
    rfl
  · cases (scan s.inBytes).frames[k]? <;> rfl

end Sys2Proof.Machine

namespace Sys2Proof.Claims

open Sys2Proof.Machine

/-- Settles O36: the bound check, then the LRC's own check, then the text in the statements' digits. -/
theorem asciiEncResult : Obligations.AsciiEncResult := by
  unfold Obligations.AsciiEncResult
  intro s
  have hbody (hin : InWindow s) := bodyOf_inWindow (i := .asciiEnc) (by rw [bodyOf, bodyAsciiEnc]) hin
  refine ⟨rfl, fun hin hlen => ?_, fun hin hlen => ?_, raises_of_not_inWindow (by rw [bodyOf, bodyAsciiEnc])⟩
  · specialize hbody hin
    rw [asciiEnc_ok hlen] at hbody
    exact completesOut_of_body hbody
  · specialize hbody hin
    rw [asciiEnc_short hlen] at hbody
    exact raises_of_body hbody rfl

/-- Settles O37: the encoder's text is ':', the digits of the bytes and their LRC, and CR LF; the decoder reads them back. -/
theorem asciiRoundTrip : Obligations.AsciiRoundTrip := by
  unfold Obligations.AsciiRoundTrip
  intro lower x hlen
  refine ⟨_, asciiEnc_ok hlen, ?_⟩
  have hdigits : HexOf lower (hexText x ++ hexText [lrcOf x]) (x ++ [lrcOf x]) := by
    have htext := hexOf_hexText lower (x ++ [lrcOf x])
    unfold hexText at htext ⊢
    rwa [List.flatMap_append] at htext
  rw [asciiDec_of_bodyOf (.inl (by rw [List.append_assoc [0x3A]])), decodeBody_digits hdigits, checkLrc_concat _ hlen,
    if_pos rfl]

/-- Settles O38: the decoder reads the body between ':' and the terminator, and checks it in the order of R185. -/
theorem asciiDecodeChecks : Obligations.AsciiDecodeChecks := by
  unfold Obligations.AsciiDecodeChecks
  intro lower f
  refine ⟨asciiDec_start, fun body hbody => ?_, exists_bodyOf⟩
  rw [asciiDec_of_bodyOf hbody]
  refine ⟨decodeBody_odd, decodeBody_hex, fun d hd hlen => ?_, fun d l hd hlen => ?_⟩
  · rw [decodeBody_digits hd, checkLrc_short hlen]
  · rw [decodeBody_digits hd, checkLrc_concat l hlen]

/-- Settles O39: the bound check, then the decoder, whose bytes or error the command posts. -/
theorem asciiDecResult : Obligations.AsciiDecResult := by
  unfold Obligations.AsciiDecResult
  intro s
  have hbody (hin : InWindow s) := bodyOf_inWindow (i := .asciiDec) (by rw [bodyOf, bodyAsciiDec]) hin
  have hraise {e : Reason} (hin : InWindow s) (he : asciiDec s.cfg.asciiLower s.inBytes = .error e) :
      Raises .asciiDec s e.kind.code e.code MayBuild := by
    specialize hbody hin
    rw [State.readIn_cfg, State.clearOutputs_cfg, he] at hbody
    exact raises_of_body hbody rfl
  refine ⟨rfl, fun d hin hd => ?_, hraise, hraise, hraise, hraise, hraise, fun e => error_mem_of_asciiDec,
    raises_of_not_inWindow (by rw [bodyOf, bodyAsciiDec])⟩
  specialize hbody hin
  rw [State.readIn_cfg, State.clearOutputs_cfg, hd] at hbody
  exact completesOut_of_body hbody

/-- Settles O40: the frames of the scan are the frames of the buffer's lines, and the loop's invariant says the rest. -/
theorem asciiFrameLaws : Obligations.AsciiFrameLaws := by
  unfold Obligations.AsciiFrameLaws
  intro b
  refine ⟨asciiScan_none_iff b, fun hno => ?_, fun hnone => ?_⟩
  · rw [asciiScan_of_no_colon hno]
    refine ⟨rfl, rfl, ?_⟩
    rw [decide_eq_true_iff]
    exact List.length_pos_iff
  · have hcolon : chColon ∈ b := by
      by_contra hno
      rw [(asciiScan_none_iff b).2 hno] at hnone
      cases hnone
    obtain ⟨hscan, -, hrest⟩ := scannedTo_asciiScan hcolon
    have hmem := mem_asciiScan_frames_iff hcolon
    refine ⟨fun f hf => ((hmem f).1 hf).exists_mid, hscan.ordered, fun f hf => ((hscan.mem_iff f).1 hf).2, hscan.le,
      not_mem_drop_iff.2 hrest, hscan.drop_iff, ?_, fun hne => ?_, fun hnil => ?_⟩
    · rintro before junk rest after rfl hbefore hjunk - hlf
      exact ⟨(hmem _).2 (lineFrame_of_line hbefore hjunk hlf), fun f hf hge hlt =>
        ((hmem f).1 hf).eq_of_start_in_line hbefore hjunk hlf hge hlt⟩
    · obtain ⟨q, hq, hlf⟩ := hscan.lf_before hne
      rw [hq, List.take_add_one, hlf]
      exact List.getLast?_concat
    · obtain ⟨hstart, hfirst⟩ := hscan.start_of_nil hnil
      exact ⟨hstart, not_mem_take_iff.2 hfirst⟩

/-- Settles O41: each framer is the same body around its own scan. -/
theorem framersPostTheirScan : Obligations.FramersPostTheirScan := by
  unfold Obligations.FramersPostTheirScan
  intro s
  have hascii : bodyOf .asciiFrame = withIn (fun b s => .done (s.setFrames s.opnd.inOfs.toNat b (asciiScan b))) := rfl
  have hrtu (req : Bool) :
      bodyOf (.rtuFrame req) = withIn (fun b s => .done (s.setFrames s.opnd.inOfs.toNat b (rtuScan req b))) := rfl
  have htcp : bodyOf .tcpFrame = withIn (fun b s => .done (s.setFrames s.opnd.inOfs.toNat b (tcpScan b))) := rfl
  exact ⟨rfl, rfl, rfl, rfl,
    fun h => ⟨completesFrames_of_inWindow hascii h, fun req => completesFrames_of_inWindow (hrtu req) h,
      completesFrames_of_inWindow htcp h⟩,
    fun h => ⟨raises_of_not_inWindow hascii h, fun req => raises_of_not_inWindow (hrtu req) h,
      raises_of_not_inWindow htcp h⟩⟩

end Sys2Proof.Claims

/-! # The rules of 43_rtu: the codec, the length estimators, the scan of RTU_FRAME, and the commands of the RTU unit

The estimators are said once in terms of the bytes they read (`estReq_of_code`, `estRsp_of_code`), so a length that is decided
stays when more bytes follow (`estReq_append_of_length`). The scan of RTU_FRAME keeps an invariant (`RtuFramed`), and each
whole request at its position is one turn of the loop (`frames_rtuLoop_of_wholeRequests`). -/

namespace Sys2Proof.Machine

/-! ### The codec (R221, R223) -/

theorem rtuEnc_ok {s : List Byte} (h : 2 ≤ s.length) : rtuEnc s = .ok (s ++ crcWire (Claims.crcOf crcSeed s)) := by
  rw [rtuEnc, crc16_ok _ h, foldl_crcByte_eq_crcOf]

theorem rtuEnc_short {s : List Byte} (h : s.length < 2) : rtuEnc s = .error .short := by
  rw [rtuEnc, crc16_short _ h]

theorem rtuDec_short {f : List Byte} (h : f.length < 4) : rtuDec f = .error .short := if_pos h

/-- The decoder splits off the last two bytes and compares them with the CRC of the others (R223). -/
theorem rtuDec_append {d w : List Byte} (hd : 2 ≤ d.length) (hw : w.length = 2) :
    rtuDec (d ++ w) = if w = crcWire (Claims.crcOf crcSeed d) then .ok d else .error .crc := by
  have hlen : (d ++ w).length = d.length + 2 := by rw [List.length_append, hw]
  unfold rtuDec
  rw [hlen, if_neg (by omega), Nat.add_sub_cancel, List.take_left, List.drop_left, crc16_ok _ hd, foldl_crcByte_eq_crcOf]
  exact ite_not _ _ _

/-- The two bytes of a CRC on the wire, one by one (R220). -/
theorem pair_eq_crcWire_iff {lo hi : Byte} {c : Half} :
    [lo, hi] = crcWire c ↔ lo = c.setWidth 8 ∧ hi = (c >>> 8).setWidth 8 := by
  rw [crcWire, List.cons.injEq, List.cons.injEq, eq_self, and_true]

/-! ### The length estimators (R225, R226) -/

theorem estReq_short {b : List Byte} (h : b.length < 2) : estReq b = .notYet := if_pos h

theorem estRsp_short {b : List Byte} (h : b.length < 2) : estRsp b = .notYet := if_pos h

/-- A function code and its number are in the same list of small numbers. -/
theorem toNat_mem_map_iff (c : Byte) (l : List Byte) : c.toNat ∈ l.map BitVec.toNat ↔ c ∈ l :=
  List.mem_map_of_injective fun _ _ => BitVec.eq_of_toNat_eq

/-- A byte count at its offset gives a length, and without it the estimate is not yet known (R227). -/
def countedEstimate (b : List Byte) (offset base : Nat) : Estimate :=
  b[offset]?.elim .notYet fun c => .length (base + c.toNat)

theorem countedEstimate_eq_ite (b : List Byte) (offset base : Nat) :
    countedEstimate b offset base =
      if b.length < offset + 1 then .notYet else .length (base + (b.getD offset 0).toNat) := by
  rw [countedEstimate, List.getD_eq_getElem?_getD]
  split_ifs with h
  · rw [List.getElem?_eq_none (Nat.le_of_lt_succ h), Option.elim_none]
  · rw [List.getElem?_eq_getElem (by omega), Option.elim_some, Option.getD_some]

theorem countedEstimate_short {b : List Byte} {offset base : Nat} (h : b.length < offset + 1) :
    countedEstimate b offset base = .notYet := by
  rw [countedEstimate_eq_ite, if_pos h]

theorem countedEstimate_count {b : List Byte} {offset base : Nat} {c : Byte} (h : b[offset]? = some c) :
    countedEstimate b offset base = .length (base + c.toNat) := by
  rw [countedEstimate, h, Option.elim_some]

theorem countedEstimate_append_of_length {f : List Byte} {offset base k : Nat}
    (h : countedEstimate f offset base = .length k) (g : List Byte) :
    countedEstimate (f ++ g) offset base = .length k := by
  cases hcount : f[offset]? with
  | none =>
    rw [countedEstimate, hcount] at h
    cases h
  | some c =>
    have hlen := (List.getElem?_eq_some_iff.1 hcount).1
    rw [countedEstimate_count (by rw [List.getElem?_append_left hlen, hcount]), ← h, countedEstimate_count hcount]

/-- The request estimator by the function code (R225). -/
theorem estReq_of_code {b : List Byte} {fc : Byte} (h : b[1]? = some fc) :
    estReq b = if fc ∈ [1, 2, 3, 4, 5, 6] then .length 6 else if fc ∈ [7, 11, 12, 17] then .length 2
      else if fc ∈ [15, 16] then countedEstimate b 6 7 else .rest := by
  have hlen := (List.getElem?_eq_some_iff.1 h).1
  have hcode : b.getD 1 0 = fc := by rw [List.getD_eq_getElem?_getD, h, Option.getD_some]
  unfold estReq
  rw [if_neg (by omega), hcode, countedEstimate_eq_ite]
  simp only [← toNat_mem_map_iff]
  rfl

/-- Bit 7 of a function code says that it is at least 0x80 (R226). -/
theorem exceptionBit_ne_zero_iff (fc : Byte) : fc &&& 0x80 ≠ 0 ↔ 0x80 ≤ fc.toNat := by
  revert fc; decide

/-- The response estimator by the function code (R226). -/
theorem estRsp_of_code {b : List Byte} {fc : Byte} (h : b[1]? = some fc) :
    estRsp b = if 0x80 ≤ fc.toNat then .length 3 else if fc ∈ [1, 2, 3, 4, 11] then countedEstimate b 2 3
      else if fc ∈ [5, 6, 15, 16] then .length 6 else .rest := by
  have hlen := (List.getElem?_eq_some_iff.1 h).1
  have hcode : b.getD 1 0 = fc := by rw [List.getD_eq_getElem?_getD, h, Option.getD_some]
  unfold estRsp
  rw [if_neg (by omega), hcode, countedEstimate_eq_ite]
  simp only [← toNat_mem_map_iff, exceptionBit_ne_zero_iff]
  rfl

/-- A length the request estimator has decided stays when more bytes follow (R225). -/
theorem estReq_append_of_length {f : List Byte} {k : Nat} (h : estReq f = .length k) (g : List Byte) :
    estReq (f ++ g) = .length k := by
  have hlen : 2 ≤ f.length := by
    by_contra hshort
    rw [estReq_short (Nat.lt_of_not_le hshort)] at h
    cases h
  have hcode : f[1]? = some f[1] := List.getElem?_eq_getElem hlen
  have hcode' : (f ++ g)[1]? = some f[1] := by rw [List.getElem?_append_left hlen, hcode]
  rw [estReq_of_code hcode] at h
  rw [estReq_of_code hcode']
  split_ifs at h ⊢
  · exact h
  · exact h
  · exact countedEstimate_append_of_length h g

/-! ### The loop of RTU_FRAME (R232) -/

/-- The loop waits for more bytes at `p`: the length there is not yet known, or the frame is not yet complete (R232). -/
def RtuWaits (req : Bool) (b : List Byte) (p : Nat) : Prop :=
  estimate req (b.drop p) = .notYet ∨ ∃ k, estimate req (b.drop p) = .length k ∧ b.length - p < k + 2

/-- The frame `f` is as long as the estimate at its start says, or it is the rest of the buffer (R232). -/
def RtuSized (req : Bool) (b : List Byte) (f : Nat × Nat) : Prop :=
  (∃ k, estimate req (b.drop f.1) = .length k ∧ f.2 = k + 2) ∨
    (estimate req (b.drop f.1) = .rest ∧ f.1 + f.2 = b.length)

section Loop

variable {req : Bool} {b : List Byte} {p : Nat} {fs : List (Nat × Nat)}

theorem rtuLoop_of_end (fuel : Nat) (h : b.length ≤ p) :
    rtuLoop req b fuel p fs = { frames := fs, stop := p, none := false, drop := false } := by
  cases fuel with
  | zero => rfl
  | succ fuel => rw [rtuLoop, if_neg (Nat.not_lt.2 h)]

theorem rtuLoop_of_waits (fuel : Nat) (h : RtuWaits req b p) :
    rtuLoop req b fuel p fs = { frames := fs, stop := p, none := false, drop := false } := by
  cases fuel with
  | zero => rfl
  | succ fuel =>
    rw [rtuLoop, slice_to_end]
    obtain hnot | ⟨k, hk, hfew⟩ := h
    · rw [hnot, ite_self]
    · rw [hk]
      dsimp only
      rw [if_neg (Nat.not_le.2 hfew), ite_self]

theorem rtuLoop_of_rest (fuel : Nat) (hp : p < b.length) (h : estimate req (b.drop p) = .rest) :
    rtuLoop req b (fuel + 1) p fs =
      { frames := fs ++ [(p, b.length - p)], stop := b.length, none := false, drop := false } := by
  rw [rtuLoop, slice_to_end, h, if_pos hp]

theorem rtuLoop_of_length (fuel : Nat) {k : Nat} (h : estimate req (b.drop p) = .length k) (hfit : p + (k + 2) ≤ b.length) :
    rtuLoop req b (fuel + 1) p fs = rtuLoop req b fuel (p + (k + 2)) (fs ++ [(p, k + 2)]) := by
  rw [rtuLoop, slice_to_end, h, if_pos (by omega)]
  exact if_pos (by omega)

end Loop

/-- A frame where the chain ends makes it longer (R233). -/
theorem chain_snoc {p q : Nat} {fs : List (Nat × Nat)} (n : Nat) (h : Claims.Chain p fs q) :
    Claims.Chain p (fs ++ [(q, n)]) (q + n) := by
  induction fs generalizing p with
  | nil =>
    cases h
    exact ⟨rfl, rfl⟩
  | cons f fs ih => exact ⟨h.1, ih h.2⟩

/-- Where the loop stands when it has framed the buffer up to `p` (R232). -/
structure RtuFramed (req : Bool) (b : List Byte) (p : Nat) (fs : List (Nat × Nat)) : Prop where
  le : p ≤ b.length
  chain : Claims.Chain 0 fs p
  sized : ∀ f ∈ fs, RtuSized req b f

theorem RtuFramed.start (req : Bool) (b : List Byte) : RtuFramed req b 0 [] :=
  ⟨Nat.zero_le _, rfl, fun _ h => absurd h List.not_mem_nil⟩

/-- The next frame begins where the last one ended (R232). -/
theorem RtuFramed.snoc {req : Bool} {b : List Byte} {p n : Nat} {fs : List (Nat × Nat)} (h : RtuFramed req b p fs)
    (hle : p + n ≤ b.length) (hsized : RtuSized req b (p, n)) : RtuFramed req b (p + n) (fs ++ [(p, n)]) :=
  ⟨hle, chain_snoc n h.chain, List.forall_mem_append.2 ⟨h.sized, List.forall_mem_singleton.2 hsized⟩⟩

/-- The loop stops at the end of the buffer or where it waits; with more turns than bytes left it does not run out of them
(R19, R232). -/
theorem rtuFramed_rtuLoop {req : Bool} {b : List Byte} {fuel p : Nat} {fs : List (Nat × Nat)} (h : RtuFramed req b p fs)
    (hfuel : b.length < p + fuel) {c : Scan} (hc : rtuLoop req b fuel p fs = c) :
    RtuFramed req b c.stop c.frames ∧ (c.stop < b.length → RtuWaits req b c.stop) ∧ c.none = false ∧ c.drop = false := by
  induction fuel generalizing p fs with
  | zero => exact absurd h.le (by omega)
  | succ fuel ih =>
    by_cases hp : p < b.length
    · cases he : estimate req (b.drop p) with
      | notYet =>
        rw [rtuLoop_of_waits _ (.inl he)] at hc
        subst hc
        exact ⟨h, fun _ => .inl he, rfl, rfl⟩
      | rest =>
        have hend : p + (b.length - p) = b.length := Nat.add_sub_cancel' hp.le
        have hframed := h.snoc hend.le (.inr ⟨he, hend⟩)
        rw [hend] at hframed
        rw [rtuLoop_of_rest _ hp he] at hc
        subst hc
        exact ⟨hframed, fun hlt => absurd hlt (Nat.lt_irrefl _), rfl, rfl⟩
      | length k =>
        by_cases hfit : p + (k + 2) ≤ b.length
        · rw [rtuLoop_of_length _ he hfit] at hc
          exact ih (h.snoc hfit (.inl ⟨k, he, rfl⟩)) (by omega) hc
        · have hwaits : RtuWaits req b p := .inr ⟨k, he, by omega⟩
          rw [rtuLoop_of_waits _ hwaits] at hc
          subst hc
          exact ⟨h, fun _ => hwaits, rfl, rfl⟩
    · rw [rtuLoop_of_end _ (Nat.le_of_not_lt hp)] at hc
      subst hc
      exact ⟨h, fun hlt => absurd hlt hp, rfl, rfl⟩

theorem rtuFramed_rtuScan (req : Bool) (b : List Byte) :
    RtuFramed req b (rtuScan req b).stop (rtuScan req b).frames ∧
    ((rtuScan req b).stop < b.length → RtuWaits req b (rtuScan req b).stop) ∧
    (rtuScan req b).none = false ∧ (rtuScan req b).drop = false :=
  rtuFramed_rtuLoop (.start req b) (by omega) rfl

/-- Whole requests in a row, from `pre` to the end of the buffer: the loop adds exactly their frames (R233). -/
theorem frames_rtuLoop_of_wholeRequests {b : List Byte} {reqs : List (List Byte)} (h : ∀ f ∈ reqs, Claims.WholeRequest f)
    {pre : List Byte} (hb : b = pre ++ reqs.flatten) {fuel : Nat} (hfuel : b.length < pre.length + fuel)
    (fs : List (Nat × Nat)) :
    (rtuLoop true b fuel pre.length fs).frames.map (Claims.cut b) = fs.map (Claims.cut b) ++ reqs ∧
      (rtuLoop true b fuel pre.length fs).stop = b.length := by
  induction reqs generalizing pre fuel fs with
  | nil =>
    rw [List.flatten_nil, List.append_nil] at hb
    rw [rtuLoop_of_end _ (by rw [hb]), hb, List.append_nil]
    exact ⟨rfl, rfl⟩
  | cons f reqs ih =>
    obtain ⟨⟨k, hk, hlen⟩, hreqs⟩ := List.forall_mem_cons.1 h
    rw [List.flatten_cons] at hb
    have hdrop : b.drop pre.length = f ++ reqs.flatten := by rw [hb, List.drop_left]
    have hcut : Claims.cut b (pre.length, k + 2) = f := by rw [Claims.cut, hdrop, ← hlen, List.take_left]
    have hfit : pre.length + (k + 2) ≤ b.length := by
      rw [hb, List.length_append, List.length_append, hlen]
      omega
    have hestimate : estimate true (b.drop pre.length) = .length k := hdrop ▸ estReq_append_of_length hk _
    have hnext : (pre ++ f).length = pre.length + (k + 2) := by rw [List.length_append, hlen]
    cases fuel with
    | zero => omega
    | succ fuel =>
      specialize ih hreqs (pre := pre ++ f) (fuel := fuel) (by rw [hb, List.append_assoc]) (by omega)
        (fs ++ [(pre.length, k + 2)])
      rw [rtuLoop_of_length _ hestimate hfit, ← hnext]
      rwa [List.map_append, List.map_singleton, hcut, List.append_assoc] at ih

/-! ### What RTU_EST posts (R228) -/

/-- The result registers that show an estimate: the length and EST = 0, or only EST (R228). -/
def estimateOutputs : Estimate → OutputRegs
  | .length k => { Claims.cleared with result := BitVec.ofNat 16 k }
  | .notYet => { Claims.cleared with flags := { Claims.cleared.flags with est := 1 } }
  | .rest => { Claims.cleared with flags := { Claims.cleared.flags with est := 2 } }

theorem completes_rtuEst {s : State} (req : Bool) (h : Claims.InWindow s) :
    Claims.Completes (.rtuEst req) s (estimateOutputs (estimate req s.inBytes)) s.tblBuilt := by
  have hbody := bodyOf_inWindow (i := .rtuEst req) (by rw [bodyOf, bodyRtuEst]) h
  cases he : estimate req s.inBytes <;> rw [he] at hbody <;> exact completes_of_body hbody

/-! ### TBL_BUILT of a command that fails (R153, R355) -/

/-- A command whose body raises with TBL_BUILT set posts the reason's codes and leaves it set. -/
theorem raises_built_of_body {i : Instr} {s t : State} {r : Reason} (h : bodyOf i s.clearOutputs = .raise r t)
    (ht : t.tblBuilt = true) : Claims.Raises i s r.kind.code r.code Claims.Built :=
  ⟨true, t.draws + 1, rfl, by rw [exec_eq, perform_raise h, ht, Bool.or_true]; rfl⟩

/-- Without a CRC, TBL_BUILT is as it was (R153). -/
theorem State.noteTable_false (s : State) : s.noteTable false = s := by
  rw [State.noteTable, Bool.or_false]

end Sys2Proof.Machine

namespace Sys2Proof.Claims

open Sys2Proof.Machine

/-- Settles O42: the bound check, then the CRC's own check, then IN and its CRC. -/
theorem rtuEncResult : Obligations.RtuEncResult := by
  unfold Obligations.RtuEncResult
  intro s
  have hbody (hin : InWindow s) := bodyOf_inWindow (i := .rtuEnc) (by rw [bodyOf, bodyRtuEnc]) hin
  refine ⟨rfl, fun hin hlen => ?_, fun hin hlen => ?_, raises_of_not_inWindow (by rw [bodyOf, bodyRtuEnc])⟩
  · specialize hbody hin
    rw [rtuEnc_ok hlen, rtuEncBuilds, decide_eq_true hlen, State.noteTable_true] at hbody
    exact completesOut_of_body hbody
  · specialize hbody hin
    rw [rtuEnc_short hlen, rtuEncBuilds, decide_eq_false (Nat.not_le.2 hlen), State.noteTable_false] at hbody
    exact raises_of_body hbody rfl

/-- Settles O43: the decoder splits off the two bytes the encoder appended, and they are the CRC. -/
theorem rtuRoundTrip : Obligations.RtuRoundTrip := by
  unfold Obligations.RtuRoundTrip
  intro x hlen
  exact ⟨_, rtuEnc_ok hlen, by rw [rtuDec_append hlen rfl, if_pos rfl]⟩

/-- Settles O44: the bound check, then the length check, then the comparison of the last two bytes with the CRC. -/
theorem rtuDecResult : Obligations.RtuDecResult := by
  unfold Obligations.RtuDecResult
  intro s
  have hbody (hin : InWindow s) := bodyOf_inWindow (i := .rtuDec) (by rw [bodyOf, bodyRtuDec]) hin
  refine ⟨rfl, fun d lo hi hin hx hlen => ?_, fun hin hlen => ?_, raises_of_not_inWindow (by rw [bodyOf, bodyRtuDec])⟩
  · have hbuilds : rtuDecBuilds (d ++ [lo, hi]) = true :=
      decide_eq_true (by rw [List.length_append]; exact Nat.add_le_add_right hlen 2)
    have hwire : [lo, hi] = crcWire (crcOf crcSeed d) ↔ _ := pair_eq_crcWire_iff
    specialize hbody hin
    rw [hx, rtuDec_append hlen rfl, hbuilds, State.noteTable_true] at hbody
    refine ⟨fun hcrc => ?_, fun hcrc => ?_⟩
    · rw [if_pos (hwire.2 hcrc)] at hbody
      exact completesOut_of_body hbody
    · rw [if_neg (mt hwire.1 hcrc)] at hbody
      exact raises_built_of_body hbody rfl
  · specialize hbody hin
    rw [rtuDec_short hlen, rtuDecBuilds, decide_eq_false (Nat.not_le.2 hlen), State.noteTable_false] at hbody
    exact raises_of_body hbody rfl

/-- Settles O45: each class is a branch of its estimator, and the classes are disjoint. -/
theorem lengthEstimatorClasses : Obligations.LengthEstimatorClasses := by
  unfold Obligations.LengthEstimatorClasses
  intro b
  refine ⟨fun h => ⟨estReq_short h, estRsp_short h⟩, fun fc _ hcode => ?_⟩
  rw [estReq_of_code hcode, estRsp_of_code hcode]
  have htwoReq : ∀ c ∈ ([7, 11, 12, 17] : List Byte), c ∉ ([1, 2, 3, 4, 5, 6] : List Byte) := by decide
  have hcountedReq : ∀ c ∈ ([15, 16] : List Byte),
      c ∉ ([1, 2, 3, 4, 5, 6] : List Byte) ∧ c ∉ ([7, 11, 12, 17] : List Byte) := by decide
  have hrestReq : ∀ c ∉ ([1, 2, 3, 4, 5, 6, 7, 11, 12, 15, 16, 17] : List Byte),
      c ∉ ([1, 2, 3, 4, 5, 6] : List Byte) ∧ c ∉ ([7, 11, 12, 17] : List Byte) ∧ c ∉ ([15, 16] : List Byte) := by decide
  have hcountedRsp : ∀ c ∈ ([1, 2, 3, 4, 11] : List Byte), ¬0x80 ≤ c.toNat := by decide
  have hsixRsp : ∀ c ∈ ([5, 6, 15, 16] : List Byte), ¬0x80 ≤ c.toNat ∧ c ∉ ([1, 2, 3, 4, 11] : List Byte) := by decide
  have hrestRsp : ∀ c ∉ ([1, 2, 3, 4, 5, 6, 11, 15, 16] : List Byte),
      c ∉ ([1, 2, 3, 4, 11] : List Byte) ∧ c ∉ ([5, 6, 15, 16] : List Byte) := by decide
  refine ⟨fun h => if_pos h, fun h => ?_, fun h hlen => ?_, fun h c hc => ?_, fun h => ?_, fun h => if_pos h,
    fun h hlen => ?_, fun h c hc => ?_, fun h => ?_, fun hlow h => ?_⟩
  · rw [if_neg (htwoReq fc h), if_pos h]
  · rw [if_neg (hcountedReq fc h).1, if_neg (hcountedReq fc h).2, if_pos h, countedEstimate_short hlen]
  · rw [if_neg (hcountedReq fc h).1, if_neg (hcountedReq fc h).2, if_pos h, countedEstimate_count hc]
  · obtain ⟨hnotSix, hnotTwo, hnotFifteen⟩ := hrestReq fc h
    rw [if_neg hnotSix, if_neg hnotTwo, if_neg hnotFifteen]
  · rw [if_neg (hcountedRsp fc h), if_pos h, countedEstimate_short hlen]
  · rw [if_neg (hcountedRsp fc h), if_pos h, countedEstimate_count hc]
  · rw [if_neg (hsixRsp fc h).1, if_neg (hsixRsp fc h).2, if_pos h]
  · obtain ⟨hnotBytes, hnotSix⟩ := hrestRsp fc h
    rw [if_neg (Nat.not_le.2 hlow), if_neg hnotBytes, if_neg hnotSix]

/-- Settles O47: the loop's invariant holds where it stops, and whole requests are one turn of the loop each. -/
theorem rtuFrameLaws : Obligations.RtuFrameLaws := by
  unfold Obligations.RtuFrameLaws
  intro req b
  obtain ⟨hframed, hstop, hnone, hdrop⟩ := rtuFramed_rtuScan req b
  refine ⟨hnone, hdrop, hframed.chain, hframed.le, hframed.sized, hstop, fun reqs hreqs => ?_⟩
  exact frames_rtuLoop_of_wholeRequests hreqs (pre := []) (List.nil_append _).symm (by rw [List.length_nil]; omega) []

/-- Settles O46: the bound check, then one case for each estimate. -/
theorem rtuEstResult : Obligations.RtuEstResult := by
  unfold Obligations.RtuEstResult
  intro s req
  refine ⟨by cases req <;> rfl, fun hin => ?_, raises_of_not_inWindow (by rw [bodyOf, bodyRtuEst])⟩
  have hpost {e : Estimate} (he : estimate req s.inBytes = e) :
      Completes (.rtuEst req) s (estimateOutputs e) s.tblBuilt := he ▸ completes_rtuEst req hin
  exact ⟨fun k => hpost, hpost, hpost⟩

end Sys2Proof.Claims

/-! # The rules of 44_tcp: the codec, the header check, the scan of TCP_FRAME, and the commands of the TCP unit

The header check is said once for a header and what follows it (`tcpValid_header`). Where the scan of TCP_FRAME stands, three
things can lie ahead (`awaitsBytes_or_badHeader_or_startsFrame`): the loop waits, discards the rest, or takes one more frame. -/

namespace Sys2Proof.Machine

/-! ### The operands SEQ and PARAM.XUNIT as bytes (R36, R37) -/

theorem State.seqPair_eq (s : State) : s.seqPair = (s.opnd.seq.extractLsb' 8 8, s.opnd.seq.extractLsb' 0 8) :=
  congrArg₂ Prod.mk BitVec.setWidth_ushiftRight_eq_extractLsb (BitVec.setWidth_eq_extractLsb' (by decide))

theorem State.xunit_eq (s : State) : s.xunit = s.opnd.param.extractLsb' 0 8 := BitVec.setWidth_eq_extractLsb' (by decide)

/-- Two bytes are SEQ in wire order exactly when they make up SEQ, the first one high (R37). -/
theorem pair_eq_seqPair_iff {s : State} {t0 t1 : Byte} : (t0, t1) = s.seqPair ↔ t0 ++ t1 = s.opnd.seq := by
  rw [State.seqPair_eq]
  constructor
  · intro h
    cases h
    exact BitVec.extractLsb'_append_extractLsb' (w := 8)
  · intro h
    rw [← h]
    exact Prod.ext BitVec.extractLsb'_append_eq_left.symm BitVec.extractLsb'_append_eq_right.symm

/-- A value is checked against an expected one only where one is given (R264). -/
theorem expected_mismatch_iff {α : Type} (given : Bool) (expected found : α) :
    ((if given then some expected else none) ≠ none ∧ some found ≠ if given then some expected else none) ↔
      given = true ∧ found ≠ expected := by
  cases given <;> simp

/-! ### The codec (R261, R264, R267) -/

theorem tcpEnc_ok {s : List Byte} (t : Byte × Byte) (h : 2 ≤ s.length) :
    tcpEnc t s =
      .ok ([t.1, t.2, 0x00, 0x00, BitVec.ofNat 8 (s.length / 256), BitVec.ofNat 8 (s.length % 256)] ++ s) := by
  have hhigh : s.length >>> 8 = s.length / 256 := Nat.shiftRight_eq_div_pow _ 8
  have hlow : s.length &&& 0xFF = s.length % 256 := Nat.and_two_pow_sub_one_eq_mod _ 8
  unfold tcpEnc
  dsimp only
  rw [if_neg (Nat.not_lt.2 h), hhigh, hlow]

/-- The length field of a header, whatever follows it (R263). -/
theorem tcpLen_header (t0 t1 p0 p1 l0 l1 : Byte) (d : List Byte) :
    tcpLen ([t0, t1, p0, p1, l0, l1] ++ d) = 256 * l0.toNat + l1.toNat :=
  congrArg (· + l1.toNat) (Nat.mul_comm l0.toNat 256)

/-- A 16-bit length is what its two bytes on the wire say (R261, R263). -/
theorem length_of_wire {n : Nat} (h : n < 65536) :
    256 * (BitVec.ofNat 8 (n / 256)).toNat + (BitVec.ofNat 8 (n % 256)).toNat = n := by
  rw [BitVec.toNat_ofNat, BitVec.toNat_ofNat]
  omega

theorem tcpValid_short {f : List Byte} (xs : Option (Byte × Byte)) (xu : Option Byte) (h : f.length < 8) :
    tcpValid f xs xu = .error .short := if_pos h

/-- The checks of a header and the bytes after it, in their order (R264). -/
theorem tcpValid_header (t0 t1 p0 p1 l0 l1 : Byte) {d : List Byte} (hd : 2 ≤ d.length) (xs : Option (Byte × Byte))
    (xu : Option Byte) :
    tcpValid ([t0, t1, p0, p1, l0, l1] ++ d) xs xu =
      if p0 ≠ 0 ∨ p1 ≠ 0 then .error .protoId
      else if 256 * l0.toNat + l1.toNat ≠ d.length then .error .lenMismatch
      else if 256 < d.length then .error .lenBig
      else if xs ≠ none ∧ some (t0, t1) ≠ xs then .error .seqMismatch
      else if xu ≠ none ∧ some (d.getD 0 0) ≠ xu then .error .unitMismatch
      else .ok () := by
  have hlen : ([t0, t1, p0, p1, l0, l1] ++ d).length = d.length + 6 := rfl
  unfold tcpValid
  dsimp only
  rw [hlen, Nat.add_sub_cancel, tcpLen_header, if_neg (by omega)]
  by_cases hfield : 256 * l0.toNat + l1.toNat = d.length
  · rw [hfield]
    rfl
  · rw [if_pos hfield, if_pos hfield]
    rfl

/-- The decoder checks the length field alone once the protocol id is 00 00, and splits off the id (R267). -/
theorem tcpDec_header (t0 t1 l0 l1 : Byte) {d : List Byte} (hd : 2 ≤ d.length)
    (hlen : 256 * l0.toNat + l1.toNat = d.length) :
    tcpDec ([t0, t1, 0x00, 0x00, l0, l1] ++ d) = if 256 < d.length then .error .lenBig else .ok ((t0, t1), d) := by
  have hid : ¬((0x00 : Byte) ≠ 0 ∨ (0x00 : Byte) ≠ 0) := by decide
  unfold tcpDec
  rw [tcpValid_header _ _ _ _ _ _ hd, if_neg hid, if_neg (not_not.2 hlen), slice_to_end]
  split_ifs with hbig hseq hunit
  · rfl
  · exact absurd rfl hseq.1
  · exact absurd rfl hunit.1
  · rfl

/-- The checks of TCP_VALID, its options and its operands written out (R264, R265). -/
theorem tcpValid_operands (s : State) (xseq xunit : Bool) (t0 t1 p0 p1 l0 l1 : Byte) {d : List Byte} (hd : 2 ≤ d.length) :
    tcpValid ([t0, t1, p0, p1, l0, l1] ++ d) (if xseq then some s.seqPair else none) (if xunit then some s.xunit else none) =
      if p0 ≠ 0 ∨ p1 ≠ 0 then .error .protoId
      else if 256 * l0.toNat + l1.toNat ≠ d.length then .error .lenMismatch
      else if 256 < d.length then .error .lenBig
      else if xseq = true ∧ t0 ++ t1 ≠ s.opnd.seq then .error .seqMismatch
      else if xunit = true ∧ d.getD 0 0 ≠ s.opnd.param.extractLsb' 0 8 then .error .unitMismatch
      else .ok () := by
  rw [tcpValid_header _ _ _ _ _ _ hd]
  simp only [expected_mismatch_iff, ne_eq, pair_eq_seqPair_iff, State.xunit_eq]

/-! ### What lies where the scan of TCP_FRAME stands (R275) -/

/-- The bytes begin with a whole frame of length `n` (R275, R276). -/
def StartsFrame (r : List Byte) (n : Nat) : Prop :=
  ∃ t0 t1 l0 l1 d after, r = [t0, t1, 0x00, 0x00, l0, l1] ++ (d ++ after) ∧ 256 * l0.toNat + l1.toNat = d.length ∧
    2 ≤ d.length ∧ n = 6 + d.length

theorem StartsFrame.le_length {r : List Byte} {n : Nat} (h : StartsFrame r n) : n ≤ r.length := by
  obtain ⟨t0, t1, l0, l1, d, after, rfl, -, -, rfl⟩ := h
  rw [List.length_append, List.length_append]
  exact Nat.add_le_add_left (Nat.le_add_right _ _) 6

/-- The frame itself: its header and as many bytes as its length field says (R276). -/
theorem StartsFrame.take_eq {r : List Byte} {n : Nat} (h : StartsFrame r n) :
    ∃ t0 t1 l0 l1 d, r.take n = [t0, t1, 0x00, 0x00, l0, l1] ++ d ∧ 256 * l0.toNat + l1.toNat = d.length ∧
      2 ≤ d.length ∧ n = 6 + d.length := by
  obtain ⟨t0, t1, l0, l1, d, after, rfl, hlen, htwo, rfl⟩ := h
  refine ⟨t0, t1, l0, l1, d, ?_, hlen, htwo, rfl⟩
  rw [← List.append_assoc]
  exact List.take_left' (List.length_append.trans rfl)

/-- Six bytes or more are a header and what follows it. -/
theorem exists_header_of_six_le {r : List Byte} (h : 6 ≤ r.length) :
    ∃ t0 t1 p0 p1 l0 l1 d, r = [t0, t1, p0, p1, l0, l1] ++ d := by
  match r, h with
  | t0 :: t1 :: p0 :: p1 :: l0 :: l1 :: d, _ => exact ⟨t0, t1, p0, p1, l0, l1, d, rfl⟩

/-- The three ways a turn of the loop can go (R275). -/
theorem awaitsBytes_or_badHeader_or_startsFrame (r : List Byte) :
    Claims.AwaitsBytes r ∨ Claims.BadHeader r ∨ ∃ n, StartsFrame r n := by
  by_cases hsix : r.length < 6
  · exact .inl (.inl hsix)
  obtain ⟨t0, t1, p0, p1, l0, l1, d, rfl⟩ := exists_header_of_six_le (Nat.not_lt.1 hsix)
  by_cases hbad : p0 ≠ 0 ∨ p1 ≠ 0 ∨ 256 * l0.toNat + l1.toNat < 2
  · exact .inr (.inl ⟨t0, t1, p0, p1, l0, l1, d, rfl, hbad⟩)
  obtain ⟨rfl, rfl, htwo⟩ : p0 = 0 ∧ p1 = 0 ∧ 2 ≤ 256 * l0.toNat + l1.toNat := by
    simpa only [not_or, not_not, not_lt] using hbad
  by_cases hfew : d.length < 256 * l0.toNat + l1.toNat
  · exact .inl (.inr ⟨t0, t1, l0, l1, d, rfl, htwo, hfew⟩)
  have hlen := List.length_take_of_le (Nat.not_lt.1 hfew)
  exact .inr (.inr ⟨_, t0, t1, l0, l1, d.take (256 * l0.toNat + l1.toNat), d.drop (256 * l0.toNat + l1.toNat),
    by rw [List.take_append_drop], hlen.symm, by rwa [hlen], rfl⟩)

/-! ### The loop of TCP_FRAME (R275) -/

section Loop

variable {b : List Byte} {p : Nat} {fs : List (Nat × Nat)}

theorem tcpLoop_of_short (fuel : Nat) (h : (b.drop p).length < 6) :
    tcpLoop b fuel p fs = { frames := fs, stop := p, none := false, drop := false } := by
  rw [List.length_drop] at h
  cases fuel with
  | zero => rfl
  | succ fuel => exact if_pos h

/-- A turn of the loop on a whole header and the bytes after it. -/
theorem tcpLoop_of_header (fuel : Nat) {t0 t1 p0 p1 l0 l1 : Byte} {d : List Byte}
    (h : b.drop p = [t0, t1, p0, p1, l0, l1] ++ d) :
    tcpLoop b (fuel + 1) p fs =
      if p0 ≠ 0 ∨ p1 ≠ 0 ∨ 256 * l0.toNat + l1.toNat < 2 then
        { frames := fs, stop := b.length, none := fs.isEmpty, drop := true }
      else if d.length + 6 < 6 + (256 * l0.toNat + l1.toNat) then
        { frames := fs, stop := p, none := false, drop := false }
      else tcpLoop b fuel (p + (6 + (256 * l0.toNat + l1.toNat))) (fs ++ [(p, 6 + (256 * l0.toNat + l1.toNat))]) := by
  have hlen : ([t0, t1, p0, p1, l0, l1] ++ d).length = d.length + 6 := rfl
  rw [tcpLoop, slice_to_end, ← List.length_drop, h, hlen, if_neg (by omega)]
  dsimp only
  rw [tcpLen_header]
  rfl

/-- A header with protocol id 00 00 and a length field of at least 2 is not bad (R275). -/
theorem not_badHeader_of_two_le {n : Nat} (h : 2 ≤ n) : ¬((0x00 : Byte) ≠ 0 ∨ (0x00 : Byte) ≠ 0 ∨ n < 2) := by
  rw [not_or, not_or, not_lt]
  exact ⟨not_not.2 rfl, not_not.2 rfl, h⟩

theorem tcpLoop_of_awaitsBytes (fuel : Nat) (h : Claims.AwaitsBytes (b.drop p)) :
    tcpLoop b fuel p fs = { frames := fs, stop := p, none := false, drop := false } := by
  obtain hsix | ⟨t0, t1, l0, l1, d, hr, htwo, hfew⟩ := h
  · exact tcpLoop_of_short fuel hsix
  cases fuel with
  | zero => rfl
  | succ fuel => rw [tcpLoop_of_header fuel hr, if_neg (not_badHeader_of_two_le htwo), if_pos (by omega)]

theorem tcpLoop_of_badHeader (fuel : Nat) (h : Claims.BadHeader (b.drop p)) :
    tcpLoop b (fuel + 1) p fs = { frames := fs, stop := b.length, none := fs.isEmpty, drop := true } := by
  obtain ⟨t0, t1, p0, p1, l0, l1, d, hr, hbad⟩ := h
  rw [tcpLoop_of_header fuel hr, if_pos hbad]

theorem tcpLoop_of_startsFrame (fuel : Nat) {n : Nat} (h : StartsFrame (b.drop p) n) :
    tcpLoop b (fuel + 1) p fs = tcpLoop b fuel (p + n) (fs ++ [(p, n)]) := by
  obtain ⟨t0, t1, l0, l1, d, after, hr, hlen, htwo, rfl⟩ := h
  rw [tcpLoop_of_header fuel hr, hlen, if_neg (not_badHeader_of_two_le htwo), if_neg (by rw [List.length_append]; omega)]

end Loop

/-- Where the loop stands when it has framed the buffer up to `p` (R275). -/
structure TcpFramed (b : List Byte) (p : Nat) (fs : List (Nat × Nat)) : Prop where
  le : p ≤ b.length
  chain : Claims.Chain 0 fs p
  whole : ∀ f ∈ fs, StartsFrame (b.drop f.1) f.2

theorem TcpFramed.start (b : List Byte) : TcpFramed b 0 [] :=
  ⟨Nat.zero_le _, rfl, fun _ h => absurd h List.not_mem_nil⟩

/-- The next frame begins where the last one ended (R276). -/
theorem TcpFramed.snoc {b : List Byte} {p n : Nat} {fs : List (Nat × Nat)} (h : TcpFramed b p fs)
    (hframe : StartsFrame (b.drop p) n) : TcpFramed b (p + n) (fs ++ [(p, n)]) := by
  have hfit := hframe.le_length
  rw [List.length_drop] at hfit
  exact ⟨by have := h.le; omega, chain_snoc n h.chain,
    List.forall_mem_append.2 ⟨h.whole, List.forall_mem_singleton.2 hframe⟩⟩

/-- How the loop ends at `q`, the end of its last frame: it waits there for more bytes, or it discards the rest (R275). -/
structure TcpStops (b : List Byte) (q : Nat) (c : Scan) : Prop where
  waits : c.drop = false → c.stop = q ∧ c.none = false ∧ Claims.AwaitsBytes (b.drop q)
  discards : c.drop = true → c.stop = b.length ∧ (c.none = true ↔ c.frames = []) ∧ Claims.BadHeader (b.drop q)

/-- The loop frames the buffer up to a point where it waits or discards the rest; with more turns than bytes left it does not
run out of them (R19, R275). -/
theorem exists_framed_tcpLoop {b : List Byte} {fuel p : Nat} {fs : List (Nat × Nat)} (h : TcpFramed b p fs)
    (hfuel : b.length < p + fuel) :
    ∃ q, TcpFramed b q (tcpLoop b fuel p fs).frames ∧ TcpStops b q (tcpLoop b fuel p fs) := by
  induction fuel generalizing p fs with
  | zero => exact absurd h.le (Nat.not_le.2 hfuel)
  | succ fuel ih =>
    obtain hwaits | hbad | ⟨n, hframe⟩ := awaitsBytes_or_badHeader_or_startsFrame (b.drop p)
    · rw [tcpLoop_of_awaitsBytes _ hwaits]
      exact ⟨p, h, fun _ => ⟨rfl, rfl, hwaits⟩, fun hdrop => absurd hdrop Bool.false_ne_true⟩
    · rw [tcpLoop_of_badHeader _ hbad]
      exact ⟨p, h, fun hdrop => absurd hdrop.symm Bool.false_ne_true, fun _ => ⟨rfl, List.isEmpty_iff, hbad⟩⟩
    · have hpos : 0 < n := by
        obtain ⟨t0, t1, l0, l1, d, after, -, -, -, rfl⟩ := hframe
        omega
      rw [tcpLoop_of_startsFrame _ hframe]
      exact ih (h.snoc hframe) (by omega)

theorem exists_framed_tcpScan (b : List Byte) :
    ∃ q, TcpFramed b q (tcpScan b).frames ∧ TcpStops b q (tcpScan b) :=
  exists_framed_tcpLoop (.start b) (by omega)

/-- NONE says that the first header is bad (R275). -/
theorem tcpScan_none_iff (b : List Byte) : (tcpScan b).none = true ↔ Claims.BadHeader b := by
  constructor
  · intro hnone
    obtain ⟨q, hframed, hstops⟩ := exists_framed_tcpScan b
    cases hdrop : (tcpScan b).drop with
    | false =>
      obtain ⟨-, hsome, -⟩ := hstops.waits hdrop
      rw [hsome] at hnone
      cases hnone
    | true =>
      obtain ⟨-, hnoFrame, hbad⟩ := hstops.discards hdrop
      have hchain := hframed.chain
      rw [hnoFrame.1 hnone] at hchain
      cases hchain
      exact hbad
  · intro hbad
    exact congrArg Scan.none (tcpLoop_of_badHeader b.length (p := 0) (fs := []) hbad)

/-! ### What TCP_DEC and TCP_VALID post (R265, R268) -/

/-- TCP_DEC posts what the header check without expected values raises (R268). -/
theorem raises_tcpDec {s : State} {e : Reason} (hin : Claims.InWindow s) (h : tcpValid s.inBytes none none = .error e) :
    Claims.Raises .tcpDec s e.kind.code e.code Claims.MayBuild := by
  have hbody := bodyOf_inWindow (i := .tcpDec) (by rw [bodyOf, bodyTcpDec]) hin
  rw [tcpDec, h] at hbody
  exact raises_of_body hbody rfl

/-- What TCP_VALID posts for an answer of the header check (R265). -/
def TcpValidPosts (xseq xunit : Bool) (s : State) : Except Reason Unit → Prop
  | .error e => Claims.Raises (.tcpValid xseq xunit) s e.kind.code e.code Claims.MayBuild
  | .ok () => Claims.Completes (.tcpValid xseq xunit) s { Claims.cleared with result := 1 } s.tblBuilt

theorem tcpValidPosts_of_inWindow {s : State} (xseq xunit : Bool) (hin : Claims.InWindow s) :
    TcpValidPosts xseq xunit s
      (tcpValid s.inBytes (if xseq then some s.seqPair else none) (if xunit then some s.xunit else none)) := by
  have hbody := bodyOf_inWindow (i := .tcpValid xseq xunit) (by rw [bodyOf, bodyTcpValid]) hin
  simp only [State.seqPair_readIn, State.seqPair_clearOutputs, State.xunit_readIn, State.xunit_clearOutputs] at hbody
  cases hvalid : tcpValid s.inBytes (if xseq then some s.seqPair else none) (if xunit then some s.xunit else none) with
  | error e =>
    rw [hvalid] at hbody
    exact raises_of_body hbody rfl
  | ok u =>
    rw [hvalid] at hbody
    exact completes_of_body hbody

end Sys2Proof.Machine

namespace Sys2Proof.Claims

open Sys2Proof.Machine

/-- Settles O48: the bound check, then the length check, then the header with SEQ's two bytes. -/
theorem tcpEncResult : Obligations.TcpEncResult := by
  unfold Obligations.TcpEncResult
  intro s
  have hbody (hin : InWindow s) := bodyOf_inWindow (i := .tcpEnc) (by rw [bodyOf, bodyTcpEnc]) hin
  refine ⟨rfl, fun hin hlen => ?_, fun hin hlen => ?_, raises_of_not_inWindow (by rw [bodyOf, bodyTcpEnc])⟩
  · specialize hbody hin
    rw [tcpEnc_ok _ hlen, State.seqPair_eq] at hbody
    exact completesOut_of_body hbody
  · specialize hbody hin
    rw [tcpEnc_short _ hlen] at hbody
    exact raises_of_body hbody rfl

/-- Settles O49: the decoder reads the header the encoder wrote, and its one check left is the upper bound. -/
theorem tcpRoundTrip : Obligations.TcpRoundTrip := by
  unfold Obligations.TcpRoundTrip
  intro t x hlen hmax
  have hdec := tcpDec_header t.1 t.2 _ _ hlen (length_of_wire (by omega))
  exact ⟨_, tcpEnc_ok t hlen, fun h => hdec.trans (if_neg (Nat.not_lt.2 h)), fun h => hdec.trans (if_pos h)⟩

/-- Settles O50: the header check's branches are the statement's. -/
theorem tcpValidResult : Obligations.TcpValidResult := by
  unfold Obligations.TcpValidResult
  intro s xseq xunit
  refine ⟨by revert xseq xunit; decide, fun hin hshort => ?_, fun t0 t1 p0 p1 l0 l1 u rest hin hx hrest => ?_,
    raises_of_not_inWindow (by rw [bodyOf, bodyTcpValid])⟩
  · have hposts := tcpValidPosts_of_inWindow xseq xunit hin
    rw [tcpValid_short _ _ hshort] at hposts
    exact hposts
  · have hd : 2 ≤ (u :: rest).length := Nat.succ_le_succ (List.length_pos_iff.2 hrest)
    have hposts := tcpValidPosts_of_inWindow xseq xunit hin
    rw [show s.inBytes = [t0, t1, p0, p1, l0, l1] ++ (u :: rest) from hx, tcpValid_operands s _ _ _ _ _ _ _ _ hd] at hposts
    simp only [apply_ite (TcpValidPosts xseq xunit s)] at hposts
    exact hposts

/-- Settles O51: the bound check, then the header check; a frame that passes is split after its header. -/
theorem tcpDecResult : Obligations.TcpDecResult := by
  unfold Obligations.TcpDecResult
  intro s
  refine ⟨rfl, fun t0 t1 l0 l1 d hin hx htwo hbig hlen => ?_, fun e hin => raises_tcpDec hin,
    raises_of_not_inWindow (by rw [bodyOf, bodyTcpDec])⟩
  have hbody := bodyOf_inWindow (i := .tcpDec) (by rw [bodyOf, bodyTcpDec]) hin
  rw [hx, tcpDec_header _ _ _ _ htwo hlen, if_neg (Nat.not_lt.2 hbig)] at hbody
  exact completesOut_of_body hbody

/-- Settles O52: the loop's invariant holds where it stops. -/
theorem tcpFrameLaws : Obligations.TcpFrameLaws := by
  unfold Obligations.TcpFrameLaws
  intro b
  obtain ⟨q, hframed, hstops⟩ := exists_framed_tcpScan b
  exact ⟨fun f hf => (hframed.whole f hf).take_eq, ⟨q, hframed.chain, hframed.le, hstops.waits, hstops.discards⟩,
    tcpScan_none_iff b⟩

end Sys2Proof.Claims

/-! # The rules of 45_transaction: the codecs by protocol, the checks of the TXN unit, and its commands

The checks that come before a TXN command's own are said once for all of them: the window, PROTO, the record's state
(`exists_withProto`). What is left of a command is said by what its codec gives: `storeRequest_ok`, `storeResponse_cons`,
`renderAdu_ok`. The round trip over any pair of protocols (`decP_frameOf`) joins the three codecs' own. -/

namespace Sys2Proof.Machine

/-! ### The codecs by protocol (R300, R303) -/

theorem maxAdu_eq_aduLimit (p : Protocol) : maxAdu p = Claims.aduLimit p := by cases p <;> rfl

theorem aduLimit_le (p : Protocol) : Claims.aduLimit p ≤ 255 := maxAdu_eq_aduLimit p ▸ maxAdu_le p

/-- Every encoder gives the statements' frame for at least 2 bytes (R303). -/
theorem encP_ok (id : Byte × Byte) (p : Protocol) {d : List Byte} (hd : 2 ≤ d.length) :
    encP id p d = .ok (Claims.frameOf id p d) := by
  cases p with
  | ascii => exact asciiEnc_ok hd
  | rtu => exact rtuEnc_ok hd
  | tcp => exact tcpEnc_ok id hd

/-- Every decoder reads its encoder's frame back, where the length field of TCP allows the unit+ADU (R187, R234, R269). -/
theorem decP_frameOf (lower : Bool) (id : Byte × Byte) (p : Protocol) {d : List Byte} (hd : 2 ≤ d.length)
    (hmax : d.length ≤ 256) :
    ∃ id2, decP lower p (Claims.frameOf id p d) = .ok (id2, d) ∧ (p = .tcp → id2 = some id) := by
  have henc := encP_ok id p hd
  cases p with
  | ascii =>
    obtain ⟨f, hf, hdec⟩ := Claims.asciiRoundTrip lower d hd
    cases hf.symm.trans henc
    exact ⟨none, by rw [decP, hdec], fun h => nomatch h⟩
  | rtu =>
    obtain ⟨f, hf, hdec⟩ := Claims.rtuRoundTrip d hd
    cases hf.symm.trans henc
    exact ⟨none, by rw [decP, hdec], fun h => nomatch h⟩
  | tcp =>
    obtain ⟨f, hf, hdec, -⟩ := Claims.tcpRoundTrip id d hd (by omega)
    cases hf.symm.trans henc
    exact ⟨some id, by rw [decP, hdec hmax], fun _ => rfl⟩

/-- The header check names no CRC (R264). -/
theorem tcpValid_ne_crc (f : List Byte) (xs : Option (Byte × Byte)) (xu : Option Byte) :
    tcpValid f xs xu ≠ .error .crc := by
  unfold tcpValid
  dsimp only
  split_ifs <;> exact fun h => nomatch h

/-- A decoder that found a CRC mismatch has computed a CRC (R47, R355). -/
theorem decBuilds_of_crc {lower : Bool} {p : Protocol} {f : List Byte} (h : decP lower p f = .error .crc) :
    decBuilds p f = true := by
  cases p with
  | ascii =>
    cases hdec : asciiDec lower f with
    | ok d => rw [decP, hdec] at h; cases h
    | error e =>
      rw [decP, hdec] at h
      cases h
      exact absurd (error_mem_of_asciiDec hdec) (by decide)
  | rtu =>
    refine decide_eq_true (Nat.le_of_not_lt fun hshort => ?_)
    rw [decP, rtuDec_short hshort] at h
    cases h
  | tcp =>
    cases hvalid : tcpValid f none none with
    | ok u => rw [decP, tcpDec, hvalid] at h; cases h
    | error e =>
      rw [decP, tcpDec, hvalid] at h
      cases h
      exact absurd hvalid (tcpValid_ne_crc f none none)

/-- What the header check finds without expected values it finds first with any (R264). -/
theorem tcpValid_error_of_none {f : List Byte} {e : Reason} (h : tcpValid f none none = .error e)
    (xs : Option (Byte × Byte)) (xu : Option Byte) : tcpValid f xs xu = .error e := by
  unfold tcpValid at h ⊢
  dsimp only at h ⊢
  split_ifs at h with hshort hid hlen hbig hseq hunit
  · rwa [if_pos hshort]
  · rwa [if_neg hshort, if_pos hid]
  · rwa [if_neg hshort, if_neg hid, if_pos hlen]
  · rwa [if_neg hshort, if_neg hid, if_neg hlen, if_pos hbig]
  · exact absurd rfl hseq.1
  · exact absurd rfl hunit.1

/-- The frame of a unit+ADU of 3 bytes, as the gateway's exception is one (R261, R316). -/
theorem tcpEnc_three (t : Byte × Byte) (a b c : Byte) :
    tcpEnc t [a, b, c] = .ok [t.1, t.2, 0x00, 0x00, 0x00, 0x03, a, b, c] := by
  simpa using tcpEnc_ok (s := [a, b, c]) t (Nat.le_succ 2)

/-! ### The checks of the TXN unit, in the order of R354 -/

theorem protocolOf_tag (p : Protocol) : protocolOf (Claims.tag p) = some p := by cases p <;> rfl

theorem tag_ne_three (p : Protocol) : Claims.tag p ≠ 3 := by cases p <;> decide

theorem exists_protocolOf {q : BitVec 2} (h : q ≠ 3) : ∃ p, protocolOf q = some p :=
  Option.isSome_iff_exists.1 (by revert q; decide)

theorem hasTxn_of_protoOf {i : Instr} {q : BitVec 2} {hasTxn : Bool} (hi : Claims.protoOf i = some q)
    (hwf : i.wf hasTxn = true) : hasTxn = true := by
  cases i with
  | txnSetreq | txnGetreq | txnSetrsp | txnGetrsp | txnNorsp => exact hwf
  | _ => cases hi

/-- A command without PROTO is accepted in every state of the record (R301). -/
theorem mem_acceptedIn_of_protoOf_none {i : Instr} (hi : Claims.protoOf i = none) (st : TxnState) :
    st ∈ Claims.acceptedIn i := by
  have hall : st ∈ [TxnState.empty, .requestSet, .responseSet, .timedOut] := by cases st <;> decide
  cases i with
  | txnSetreq | txnGetreq | txnSetrsp | txnGetrsp | txnNorsp => cases hi
  | _ => exact hall

/-- A command with PROTO comes to its checks of PROTO and of the record's state once the window is in bounds (R302). -/
theorem exists_withProto {i : Instr} {s : State} {q : BitVec 2} (hi : Claims.protoOf i = some q)
    (htxn : s.cfg.hasTxn = true) (hin : Claims.readsIn i = true → Claims.InWindow s) :
    ∃ b, bodyOf i s.clearOutputs = withProto q (Claims.acceptedIn i) b s.clearOutputs := by
  have hchecked {b : Body} : withTxn b s.clearOutputs = b s.clearOutputs := withTxn_has htxn
  have hbound {b : Body} (h : Claims.InWindow s) : withBound b s.clearOutputs = b s.clearOutputs :=
    withBound_in (s.inBound_iff.2 h)
  cases i with
  | txnSetreq => cases hi; exact ⟨_, hchecked.trans (hbound (hin rfl))⟩
  | txnGetreq => cases hi; exact ⟨_, hchecked⟩
  | txnSetrsp => cases hi; exact ⟨_, hchecked.trans (hbound (hin rfl))⟩
  | txnGetrsp => cases hi; exact ⟨_, hchecked⟩
  | txnNorsp => cases hi; exact ⟨_, hchecked⟩
  | _ => cases hi

theorem raises_protoTag {i : Instr} {s : State} (hi : Claims.protoOf i = some 3) (htxn : s.cfg.hasTxn = true)
    (hin : Claims.readsIn i = true → Claims.InWindow s) : Claims.Raises i s 3 0x20 Claims.MayBuild := by
  obtain ⟨b, hbody⟩ := exists_withProto hi htxn hin
  exact raises_of_body (hbody.trans withProto_three) rfl

theorem raises_state {i : Instr} {s : State} {q : BitVec 2} (hi : Claims.protoOf i = some q) (hq : q ≠ 3)
    (htxn : s.cfg.hasTxn = true) (hin : Claims.readsIn i = true → Claims.InWindow s)
    (hst : s.txn.state ∉ Claims.acceptedIn i) : Claims.Raises i s 4 0x30 Claims.MayBuild := by
  obtain ⟨b, hbody⟩ := exists_withProto hi htxn hin
  obtain ⟨p, hp⟩ := exists_protocolOf hq
  exact raises_of_body (hbody.trans (withProto_out hp hst)) rfl

/-- A window outside IN_BUF, of a command of the TXN unit (R353). -/
theorem raises_inlen_of_withTxn {i : Instr} {s : State} {b : Body} (hi : bodyOf i = withTxn (withBound b))
    (htxn : s.cfg.hasTxn = true) (h : ¬Claims.InWindow s) : Claims.Raises i s 1 0x0B Claims.MayBuild := by
  have hbody : bodyOf i s.clearOutputs = .raise .inlen s.clearOutputs := by
    rw [hi]
    exact (withTxn_has (s := s.clearOutputs) htxn).trans (withBound_out (Bool.eq_false_iff.2 (mt s.inBound_iff.1 h)))
  exact raises_of_body hbody rfl

/-- The checks of a command that reads IN have passed. -/
theorem withTxn_withBound_withProto_in {s : State} {acc : List TxnState} {b : Protocol → Body} (p : Protocol)
    (htxn : s.cfg.hasTxn = true) (hin : Claims.InWindow s) (hst : s.txn.state ∈ acc) :
    withTxn (withBound (withProto (Claims.tag p) acc b)) s.clearOutputs = b p s.clearOutputs :=
  (withTxn_has (s := s.clearOutputs) htxn).trans
    ((withBound_in (s := s.clearOutputs) (s.inBound_iff.2 hin)).trans (withProto_in (protocolOf_tag p) hst))

/-- The checks of a command that does not read IN have passed. -/
theorem withTxn_withProto_in {s : State} {acc : List TxnState} {b : Protocol → Body} (p : Protocol)
    (htxn : s.cfg.hasTxn = true) (hst : s.txn.state ∈ acc) :
    withTxn (withProto (Claims.tag p) acc b) s.clearOutputs = b p s.clearOutputs :=
  (withTxn_has (s := s.clearOutputs) htxn).trans (withProto_in (protocolOf_tag p) hst)

/-! ### What a TXN command does once its checks have passed -/

/-- The record with a request stored: an ASCII or RTU frame, which has no transaction id, leaves the id as it was (R308). -/
def TxnRecord.withRequest (r : TxnRecord) (p : Protocol) (id : Option (Byte × Byte)) (u : Byte) (raw adu : List Byte) :
    TxnRecord :=
  { r with state := .requestSet, unit := u, seq := id.getD r.seq, reqProto := p, reqRaw := raw, reqAdu := adu }

@[simp] theorem TxnRecord.withRequest_state (r : TxnRecord) (p : Protocol) (id : Option (Byte × Byte)) (u : Byte)
    (raw adu : List Byte) : (r.withRequest p id u raw adu).state = .requestSet := rfl

@[simp] theorem TxnRecord.withRequest_unit (r : TxnRecord) (p : Protocol) (id : Option (Byte × Byte)) (u : Byte)
    (raw adu : List Byte) : (r.withRequest p id u raw adu).unit = u := rfl

@[simp] theorem TxnRecord.withRequest_reqAdu (r : TxnRecord) (p : Protocol) (id : Option (Byte × Byte)) (u : Byte)
    (raw adu : List Byte) : (r.withRequest p id u raw adu).reqAdu = adu := rfl

/-- A decoded request is stored, within the ADU limit (R308). -/
theorem storeRequest_ok {s : State} {p : Protocol} {f adu : List Byte} {id : Option (Byte × Byte)} {u : Byte}
    (hdec : decP s.cfg.asciiLower p f = .ok (id, u :: adu)) :
    storeRequest p f s = if Claims.aduLimit p < adu.length then .raise .aduMax (s.noteTable (Claims.isRtu p)) else
      .done (((s.noteTable (Claims.isRtu p)).readIn.setTxn (s.txn.withRequest p id u s.inBytes adu)).setResult
        (u.setWidth 16)) := by
  rw [storeRequest, hdec, decBuilds_of_ok hdec, ← maxAdu_eq_aduLimit]
  rfl

theorem storeRequest_error {s : State} {p : Protocol} {f : List Byte} {e : Reason}
    (hdec : decP s.cfg.asciiLower p f = .error e) : storeRequest p f s = .raise e (s.noteTable (decBuilds p f)) := by
  rw [storeRequest, hdec]

/-- A decoded unit+ADU has a unit id (R308). -/
theorem exists_cons_of_decP {lower : Bool} {p : Protocol} {f d : List Byte} {id : Option (Byte × Byte)}
    (h : decP lower p f = .ok (id, d)) : ∃ u adu, d = u :: adu :=
  List.exists_cons_of_length_pos (Nat.lt_of_succ_lt (length_of_decP h).1)

/-- `storeRequest`, read backwards: a request that was stored was decoded, and its ADU is within the limit (R308). -/
theorem storeRequest_done {s t : State} {p : Protocol} {f : List Byte} (h : storeRequest p f s = .done t) :
    ∃ id u adu, decP s.cfg.asciiLower p f = .ok (id, u :: adu) ∧ adu.length ≤ Claims.aduLimit p ∧
      t = ((s.noteTable (Claims.isRtu p)).readIn.setTxn (s.txn.withRequest p id u s.inBytes adu)).setResult
        (u.setWidth 16) := by
  cases hdec : decP s.cfg.asciiLower p f with
  | error e => rw [storeRequest_error hdec] at h; cases h
  | ok r =>
    obtain ⟨id, d⟩ := r
    obtain ⟨u, adu, rfl⟩ := exists_cons_of_decP hdec
    rw [storeRequest_ok hdec] at h
    split_ifs at h with hlimit
    cases h
    exact ⟨id, u, adu, rfl, Nat.le_of_not_lt hlimit, rfl⟩

/-- TXN_SETREQ, read backwards: what it stored when it succeeded (R308). -/
theorem exec_txnSetreq_ok {s t : State} {p : Protocol} (h : exec (.txnSetreq (Claims.tag p)) s = .next t)
    (herr : t.status.err = 0) :
    ∃ id u adu, decP s.cfg.asciiLower p s.inBytes = .ok (id, u :: adu) ∧ adu.length ≤ Claims.aduLimit p ∧
      t.cfg.hasTxn = true ∧ t.txn = s.txn.withRequest p id u s.clearOutputs.readIn.inBytes adu := by
  rcases exec_cases h with ⟨v, hbody, rfl, -⟩ | ⟨r, v, -, hne, -⟩
  · obtain ⟨htxn, hbody⟩ := withTxn_done hbody
    obtain ⟨-, hbody⟩ := withBound_done hbody
    obtain ⟨-, p', hp, hbody⟩ := withProto_done hbody
    cases (protocolOf_tag p).symm.trans hp
    obtain ⟨id, u, adu, hdec, hlimit, rfl⟩ := storeRequest_done hbody
    exact ⟨id, u, adu, hdec, hlimit, htxn, rfl⟩
  · exact absurd herr hne

/-- A response is stored, within the ADU limit (R312). -/
theorem storeResponse_cons (p : Protocol) (u : Byte) (adu : List Byte) (s : State) :
    storeResponse p (u :: adu) s = if Claims.aduLimit p < adu.length then .raise .aduMax s else
      .done ((s.readIn.setTxn { s.txn with
        state := .responseSet, rspProto := p, rspRaw := s.inBytes, rspAdu := adu }).setResult (u.setWidth 16)) := by
  rw [← maxAdu_eq_aduLimit]
  rfl

/-- A decoded response's unit id is compared with the request's before its ADU is measured (R312). -/
theorem setrspSerial_ok {s : State} {p : Protocol} {f adu : List Byte} {id : Option (Byte × Byte)} {u : Byte}
    (hdec : decP s.cfg.asciiLower p f = .ok (id, u :: adu)) :
    setrspSerial p f s = if u ≠ s.txn.unit then .raise .unitMismatch (s.noteTable (Claims.isRtu p)) else
      storeResponse p (u :: adu) (s.noteTable (Claims.isRtu p)) := by
  rw [setrspSerial, hdec, decBuilds_of_ok hdec]
  rfl

theorem setrspSerial_error {s : State} {p : Protocol} {f : List Byte} {e : Reason}
    (hdec : decP s.cfg.asciiLower p f = .error e) : setrspSerial p f s = .raise e (s.noteTable (decBuilds p f)) := by
  rw [setrspSerial, hdec]

/-- The header check with the stored ids, on a frame whose header is right but for them (R264, R312). -/
theorem tcpValid_stored (s : State) (t0 t1 u : Byte) {l0 l1 : Byte} {adu : List Byte} (hne : adu ≠ [])
    (hlimit : adu.length ≤ 255) (hfield : 256 * l0.toNat + l1.toNat = adu.length + 1) :
    tcpValid ([t0, t1, 0x00, 0x00, l0, l1, u] ++ adu) (if s.cfg.rspCheckSeq then some s.txn.seq else none)
        (some s.txn.unit) =
      if s.cfg.rspCheckSeq = true ∧ (t0, t1) ≠ s.txn.seq then .error .seqMismatch
      else if u ≠ s.txn.unit then .error .unitMismatch else .ok () := by
  have hd : 2 ≤ (u :: adu).length := Nat.succ_le_succ (List.length_pos_iff.2 hne)
  have hid : ¬((0x00 : Byte) ≠ 0 ∨ (0x00 : Byte) ≠ 0) := by decide
  have hlen : 256 * l0.toNat + l1.toNat = (u :: adu).length := hfield
  have hbig : ¬256 < (u :: adu).length := Nat.not_lt.2 (Nat.succ_le_succ hlimit)
  have hunit : some s.txn.unit ≠ none ∧ some u ≠ some s.txn.unit ↔ u ≠ s.txn.unit := by simp
  refine (tcpValid_header t0 t1 0x00 0x00 l0 l1 hd _ _).trans ?_
  rw [if_neg hid, if_neg (not_not.2 hlen), if_neg hbig]
  simp only [expected_mismatch_iff, List.getD_cons_zero, hunit]

theorem setrspTcp_error {s : State} {f : List Byte} {e : Reason}
    (h : tcpValid f (if s.cfg.rspCheckSeq then some s.txn.seq else none) (some s.txn.unit) = .error e) :
    setrspTcp f s = .raise e s := by
  rw [setrspTcp, h]

theorem setrspTcp_ok {s : State} {f : List Byte}
    (h : tcpValid f (if s.cfg.rspCheckSeq then some s.txn.seq else none) (some s.txn.unit) = .ok ()) :
    setrspTcp f s = storeResponse .tcp (s.inBytes.drop 6) s.readIn := by
  rw [setrspTcp, h, ← slice_to_end]

/-- A stored ADU that is not empty is rendered, over every protocol (R310). -/
theorem renderAdu_ok (p : Protocol) {adu : List Byte} (s : State) (hadu : adu ≠ []) :
    renderAdu p adu s =
      .done ((s.noteTable (Claims.isRtu p)).setOut (Claims.frameOf s.txn.seq p (s.txn.unit :: adu))) := by
  have henc := encP_ok s.txn.seq p (d := s.txn.unit :: adu) (Nat.succ_le_succ (List.length_pos_iff.2 hadu))
  rw [renderAdu, henc, encBuilds_of_ok henc]
  rfl

/-- The gateway's exception over TCP: the request's function code with bit 7 set, and 0x0B (R316). -/
theorem bodyOf_txnNorsp_tcp {s : State} {fc : Byte} {rest : List Byte} (htxn : s.cfg.hasTxn = true)
    (hst : s.txn.state ∈ [TxnState.requestSet, .timedOut]) (hadu : s.txn.reqAdu = fc :: rest) :
    bodyOf (.txnNorsp 2) s.clearOutputs =
      .done (((s.clearOutputs.setTxn { s.txn with state := .timedOut }).tick 1).setOut
        [s.txn.seq.1, s.txn.seq.2, 0x00, 0x00, 0x00, 0x03, s.txn.unit, fc ||| 0x80, 0x0B]) := by
  have hfc : requestFunction s.clearOutputs = fc := by
    rw [requestFunction, State.clearOutputs_txn, hadu]
    rfl
  refine (withTxn_withProto_in .tcp htxn hst).trans ?_
  dsimp only
  rw [hfc, tcpEnc_three]
  rfl

/-! ### What a command leaves, from what its body gives (R355) -/

/-- A command completes with a record if its body does, having written no more than RESULT, TBL_BUILT and the draws besides. -/
theorem completesTxn_of_body {i : Instr} {s : State} {t : TxnRecord} {result : Half} {tbl : Bool} {n : Nat}
    (h : bodyOf i s.clearOutputs = .done
      { s with outs := { Claims.cleared with result := result }, tblBuilt := tbl, draws := n, txn := t }) :
    Claims.CompletesTxn i s t result tbl :=
  ⟨n, by rw [exec_eq, perform_done h]; rfl⟩

/-- A command whose body raises after it noted a CRC if `crc`: TBL_BUILT is 1 then, and otherwise unchanged or 1. -/
theorem raises_of_noteTable {i : Instr} {s u : State} {r : Reason} {built crc : Bool}
    (h : bodyOf i s.clearOutputs = .raise r (u.noteTable built)) (hu : u.tblBuilt = s.tblBuilt)
    (hcrc : crc = true → built = true) : Claims.Raises i s r.kind.code r.code (Claims.BuiltIf crc) :=
  ⟨built || Config.freeBool u.draws, u.draws + 1, fun hc => by rw [hcrc hc, Bool.true_or],
    by rw [exec_eq, perform_raise h, State.noteTable_tblBuilt, hu, Bool.or_assoc]; rfl⟩

/-- A decoder's error, posted: after a CRC mismatch TBL_BUILT is 1 (R355). -/
theorem raises_of_decP_error {i : Instr} {s u : State} {lower : Bool} {p : Protocol} {f : List Byte} {e : Reason}
    (h : bodyOf i s.clearOutputs = .raise e (u.noteTable (decBuilds p f))) (hu : u.tblBuilt = s.tblBuilt)
    (hdec : decP lower p f = .error e) :
    Claims.Raises i s e.kind.code e.code (Claims.BuiltIf (decide (e = .crc))) := by
  refine raises_of_noteTable h hu fun hcrc => decBuilds_of_crc (hdec.trans ?_)
  rw [of_decide_eq_true hcrc]

/-! ### The record's state (R301) -/

/-- A completed body leaves the whole record as it was. -/
def Body.KeepsTxn (b : Body) : Prop := ∀ s t, b s = .done t → t.txn = s.txn

theorem keepsTxn_withIn {b : List Byte → Body} (h : ∀ f, (b f).KeepsTxn) : Body.KeepsTxn (withIn b) :=
  fun s t ht => h s.inBytes s.readIn t (withIn_done ht).2

theorem keepsTxn_outOrRaise (r : Except Reason (List Byte)) : Body.KeepsTxn (outOrRaise r) := by
  intro s t ht
  obtain ⟨d, -, rfl⟩ := outOrRaise_done ht
  rfl

/-- A framer (R190, R232, R275). -/
theorem keepsTxn_framer (scan : List Byte → Scan) :
    Body.KeepsTxn (withIn (fun b s => .done (s.setFrames s.opnd.inOfs.toNat b (scan b)))) :=
  keepsTxn_withIn fun f s t h => by cases h; rfl

/-- A command outside the TXN unit does not write the record (R389). -/
theorem keepsTxn_bodyOf {i : Instr} (hi : i.isTxn = false) : (bodyOf i).KeepsTxn := by
  cases i with
  | lrc =>
    unfold bodyOf bodyLrc
    refine keepsTxn_withIn fun f s t h => ?_
    split at h <;> cases h
    rfl
  | crc16 =>
    unfold bodyOf bodyCrc16
    refine keepsTxn_withIn fun f s t h => ?_
    split at h <;> cases h
    rfl
  | crctab => intro s t h; cases h; rfl
  | asciiEnc => exact keepsTxn_withIn fun f => keepsTxn_outOrRaise _
  | asciiDec =>
    unfold bodyOf bodyAsciiDec
    exact keepsTxn_withIn fun f s => keepsTxn_outOrRaise _ s
  | asciiFrame => exact keepsTxn_framer _
  | rtuEnc =>
    unfold bodyOf bodyRtuEnc
    exact keepsTxn_withIn fun f s t => keepsTxn_outOrRaise _ (s.noteTable _) t
  | rtuDec =>
    unfold bodyOf bodyRtuDec
    exact keepsTxn_withIn fun f s t => keepsTxn_outOrRaise _ (s.noteTable _) t
  | rtuEst req =>
    unfold bodyOf bodyRtuEst
    refine keepsTxn_withIn fun f s t h => ?_
    split at h <;> cases h <;> rfl
  | rtuFrame req => exact keepsTxn_framer _
  | tcpEnc =>
    unfold bodyOf bodyTcpEnc
    exact keepsTxn_withIn fun f s => keepsTxn_outOrRaise _ s
  | tcpValid xseq xunit =>
    unfold bodyOf bodyTcpValid
    refine keepsTxn_withIn fun f s t h => ?_
    split at h <;> cases h
    rfl
  | tcpDec =>
    unfold bodyOf bodyTcpDec
    refine keepsTxn_withIn fun f s t h => ?_
    split at h <;> cases h
    rfl
  | tcpFrame => exact keepsTxn_framer _
  | txnClear | txnSetseq | txnSetreq | txnGetreq | txnSetrsp | txnGetrsp | txnNorsp => cases hi

theorem keepsTxn_renderAdu (p : Protocol) (adu : List Byte) : Body.KeepsTxn (renderAdu p adu) :=
  fun s => keepsTxn_outOrRaise _ (s.noteTable _)

theorem state_of_storeResponse {s t : State} {p : Protocol} {d : List Byte} (h : storeResponse p d s = .done t) :
    t.txn.state = .responseSet := by
  unfold storeResponse at h
  dsimp only at h
  split_ifs at h
  cases h
  rfl

theorem state_of_setrspTcp {s t : State} {f : List Byte} (h : setrspTcp f s = .done t) : t.txn.state = .responseSet := by
  unfold setrspTcp at h
  split at h
  · cases h
  · exact state_of_storeResponse h

theorem state_of_setrspSerial {s t : State} {p : Protocol} {f : List Byte} (h : setrspSerial p f s = .done t) :
    t.txn.state = .responseSet := by
  unfold setrspSerial at h
  split at h
  · cases h
  · dsimp only at h
    split_ifs at h
    exact state_of_storeResponse h

/-- A command that completes was accepted in the record's state, and leaves the state of R301's table. -/
theorem recordState_of_done {i : Instr} {s t : State} (h : bodyOf i s = .done t) :
    s.txn.state ∈ Claims.acceptedIn i ∧ t.txn.state = Claims.stateAfter s.txn.state i := by
  cases i with
  | txnClear =>
    unfold bodyOf bodyTxnClear at h
    obtain ⟨-, h⟩ := withTxn_done h
    cases h
    exact ⟨mem_acceptedIn_of_protoOf_none rfl _, rfl⟩
  | txnSetseq =>
    obtain ⟨-, h⟩ := withTxn_done h
    obtain ⟨-, h⟩ := withIn_done h
    cases h
    exact ⟨mem_acceptedIn_of_protoOf_none rfl _, rfl⟩
  | txnSetreq q =>
    obtain ⟨-, h⟩ := withTxn_done h
    obtain ⟨-, h⟩ := withBound_done h
    obtain ⟨hst, p, -, h⟩ := withProto_done h
    obtain ⟨_, _, _, -, -, rfl⟩ := storeRequest_done h
    exact ⟨hst, rfl⟩
  | txnGetreq q =>
    obtain ⟨-, h⟩ := withTxn_done h
    obtain ⟨hst, p, -, h⟩ := withProto_done h
    exact ⟨hst, congrArg _ (keepsTxn_renderAdu _ _ s t h)⟩
  | txnSetrsp q =>
    obtain ⟨-, h⟩ := withTxn_done h
    obtain ⟨-, h⟩ := withBound_done h
    obtain ⟨hst, p, -, h⟩ := withProto_done h
    cases p with
    | ascii => exact ⟨hst, state_of_setrspSerial h⟩
    | rtu => exact ⟨hst, state_of_setrspSerial h⟩
    | tcp => exact ⟨hst, state_of_setrspTcp h⟩
  | txnGetrsp q =>
    obtain ⟨-, h⟩ := withTxn_done h
    obtain ⟨hst, p, -, h⟩ := withProto_done h
    exact ⟨hst, congrArg _ (keepsTxn_renderAdu _ _ s t h)⟩
  | txnNorsp q =>
    obtain ⟨-, h⟩ := withTxn_done h
    obtain ⟨hst, p, -, h⟩ := withProto_done h
    cases p with
    | ascii => cases h; exact ⟨hst, rfl⟩
    | rtu => cases h; exact ⟨hst, rfl⟩
    | tcp => exact ⟨hst, congrArg _ (keepsTxn_outOrRaise _ _ t h)⟩
  | _ => exact ⟨mem_acceptedIn_of_protoOf_none rfl _, congrArg _ (keepsTxn_bodyOf rfl s t h)⟩

end Sys2Proof.Machine

namespace Sys2Proof.Claims

open Sys2Proof.Machine

/-- Settles O12: a completed body was accepted and leaves the table's state; the check of the record's state raises BadState;
a raise writes no record. -/
theorem recordStateTable : Obligations.RecordStateTable := by
  unfold Obligations.RecordStateTable
  intro i s t h
  refine ⟨fun herr => ?_, fun hwf hin hproto hst => ?_, fun herr => ?_⟩
  · rcases exec_cases h with ⟨u, hbody, rfl, -⟩ | ⟨r, u, -, hne, -⟩
    · exact (recordState_of_done hbody :)
    · exact absurd herr hne
  · cases hi : protoOf i with
    | none => exact absurd (mem_acceptedIn_of_protoOf_none hi _) hst
    | some q =>
      have hq : q ≠ 3 := fun hq => hproto (hi.trans (congrArg some hq))
      obtain ⟨b, n, -, hraise⟩ := raises_state hi hq (hasTxn_of_protoOf hi hwf) hin hst
      cases h.symm.trans hraise
      rfl
  · rcases exec_cases h with ⟨u, -, -, hok⟩ | ⟨r, u, -, -, rfl⟩
    · exact absurd hok herr
    · rfl

/-- Settles O54: the checks of the unit, then what the decoder gives: an error, an ADU above the limit, or a request. -/
theorem setreqResult : Obligations.SetreqResult := by
  unfold Obligations.SetreqResult
  intro s p htxn
  have hshape (q : BitVec 2) : bodyOf (.txnSetreq q) =
      withTxn (withBound (withProto q [.empty] (fun p s => storeRequest p s.inBytes s.readIn))) := rfl
  refine ⟨by cases p <;> rfl, fun hin hst => ?_, fun hin hst => ?_, fun hin => raises_protoTag rfl htxn fun _ => hin,
    fun hin => ⟨raises_inlen_of_withTxn (hshape _) htxn hin, raises_inlen_of_withTxn (hshape _) htxn hin⟩⟩
  · have hbody : bodyOf (.txnSetreq (tag p)) s.clearOutputs = storeRequest p s.inBytes s.clearOutputs.readIn :=
      withTxn_withBound_withProto_in p htxn hin (List.mem_singleton.2 hst)
    refine ⟨fun tid u adu hdec hlimit => ?_, fun tid u adu hdec hlimit => ?_, fun e hdec => ?_⟩
    · rw [storeRequest_ok (s := s.clearOutputs.readIn) hdec, if_neg (Nat.not_lt.2 hlimit)] at hbody
      exact ⟨_, s.clearOutputs.readIn.length_inBytes,
        fun x => State.inBytes_eq_of_holdsInput (s := s.clearOutputs.readIn), completesTxn_of_body hbody⟩
    · rw [storeRequest_ok (s := s.clearOutputs.readIn) hdec, if_pos hlimit] at hbody
      exact raises_of_noteTable hbody rfl id
    · rw [storeRequest_error (s := s.clearOutputs.readIn) hdec] at hbody
      exact raises_of_decP_error hbody rfl hdec
  · exact raises_state rfl (tag_ne_three p) htxn (fun _ => hin) (mt List.mem_singleton.1 hst)

/-- Settles O55: the checks of the unit, then the frame of the stored ADU. -/
theorem storedAduIsRendered : Obligations.StoredAduIsRendered := by
  unfold Obligations.StoredAduIsRendered
  intro s p htxn
  have hnoIn {i : Instr} (hi : readsIn i = false) : readsIn i = true → InWindow s := fun h => by rw [hi] at h; cases h
  refine ⟨by cases p <;> rfl, by cases p <;> rfl, fun hst hadu => ?_, fun hst => ?_,
    raises_protoTag rfl htxn (hnoIn rfl), fun hst hadu => ?_, fun hst => ?_, raises_protoTag rfl htxn (hnoIn rfl)⟩
  · have hacc : s.txn.state ∈ [TxnState.requestSet, .responseSet, .timedOut] := by
      revert hst
      cases s.txn.state <;> decide
    have hbody : bodyOf (.txnGetreq (tag p)) s.clearOutputs = renderAdu p s.txn.reqAdu s.clearOutputs :=
      withTxn_withProto_in p htxn hacc
    exact completesOut_of_body (hbody.trans (renderAdu_ok p _ hadu))
  · exact raises_state rfl (tag_ne_three p) htxn (hnoIn rfl) (by simp [acceptedIn, hst])
  · have hbody : bodyOf (.txnGetrsp (tag p)) s.clearOutputs = renderAdu p s.txn.rspAdu s.clearOutputs :=
      withTxn_withProto_in p htxn (List.mem_singleton.2 hst)
    exact completesOut_of_body (hbody.trans (renderAdu_ok p _ hadu))
  · exact raises_state rfl (tag_ne_three p) htxn (hnoIn rfl) (mt List.mem_singleton.1 hst)

/-- Settles O56: the decoder, then the comparison of the unit ids, then the ADU limit. -/
theorem setrspSerialResult : Obligations.SetrspSerialResult := by
  unfold Obligations.SetrspSerialResult
  intro s p hp htxn hin hst
  have hbody : bodyOf (.txnSetrsp (tag p)) s.clearOutputs = setrspSerial p s.inBytes s.clearOutputs.readIn := by
    refine (withTxn_withBound_withProto_in p htxn hin (List.mem_singleton.2 hst)).trans ?_
    cases p with
    | ascii => rfl
    | rtu => rfl
    | tcp => exact absurd rfl hp
  refine ⟨by cases p <;> rfl, fun tid u adu hdec => ?_, fun e hdec => ?_⟩
  · rw [setrspSerial_ok (s := s.clearOutputs.readIn) hdec, storeResponse_cons, State.readIn_txn, State.clearOutputs_txn]
      at hbody
    refine ⟨fun hunit hlimit => ?_, fun hunit => ?_, fun hunit hlimit => ?_⟩
    · rw [if_neg (not_not.2 hunit), if_neg (Nat.not_lt.2 hlimit)] at hbody
      exact ⟨_, s.clearOutputs.readIn.length_inBytes,
        fun x => State.inBytes_eq_of_holdsInput (s := s.clearOutputs.readIn), completesTxn_of_body hbody⟩
    · rw [if_pos hunit] at hbody
      exact raises_of_noteTable hbody rfl id
    · rw [if_neg (not_not.2 hunit), if_pos hlimit] at hbody
      exact raises_of_noteTable hbody rfl id
  · rw [setrspSerial_error (s := s.clearOutputs.readIn) hdec] at hbody
    exact raises_of_decP_error hbody rfl hdec

/-- Settles O57: every reading of the window gives the bytes the host wrote; the header check compares them with the stored
ids. -/
theorem setrspTcpResult : Obligations.SetrspTcpResult := by
  unfold Obligations.SetrspTcpResult
  intro s x htxn hin hst hx
  have hfirst : s.inBytes = x := State.inBytes_eq_of_holdsInput hx
  have hsecond : s.clearOutputs.readIn.inBytes = x := State.inBytes_eq_of_holdsInput hx
  have hthird : s.clearOutputs.readIn.readIn.inBytes = x := State.inBytes_eq_of_holdsInput hx
  have hbody : bodyOf (.txnSetrsp 2) s.clearOutputs = setrspTcp x s.clearOutputs.readIn :=
    (withTxn_withBound_withProto_in .tcp htxn hin (List.mem_singleton.2 hst)).trans (congrArg (setrspTcp · _) hfirst)
  have hraise {e : Reason}
      (he : tcpValid x (if s.cfg.rspCheckSeq then some s.txn.seq else none) (some s.txn.unit) = .error e) :
      Raises (.txnSetrsp 2) s e.kind.code e.code MayBuild :=
    raises_of_body (hbody.trans (setrspTcp_error (s := s.clearOutputs.readIn) he)) rfl
  refine ⟨rfl, fun t0 t1 l0 l1 u adu hframe hne hlimit hfield => ?_, fun e he => hraise (tcpValid_error_of_none he _ _)⟩
  have hvalid := tcpValid_stored s t0 t1 u hne hlimit hfield
  rw [← hframe] at hvalid
  refine ⟨fun hcheck hseq => hraise (e := .seqMismatch) ?_, fun hseq hunit => hraise (e := .unitMismatch) ?_,
    fun hseq hunit => ?_⟩
  · rw [hvalid, if_pos ⟨hcheck, hseq⟩]
  · rw [hvalid, if_neg fun h => h.2 (hseq h.1), if_pos hunit]
  · have hok := hvalid.trans ((if_neg fun h => h.2 (hseq h.1)).trans (if_neg (not_not.2 hunit)))
    rw [setrspTcp_ok (s := s.clearOutputs.readIn) hok, hsecond, hframe] at hbody
    have hstore := hbody.trans (storeResponse_cons .tcp u adu _)
    rw [if_neg (show ¬aduLimit .tcp < adu.length from Nat.not_lt.2 hlimit), hthird] at hstore
    exact completesTxn_of_body hstore

/-- Settles O58: the checks of the unit, then the record times out, and over TCP the exception frame is encoded. -/
theorem norspResult : Obligations.NorspResult := by
  unfold Obligations.NorspResult
  intro s htxn
  have hnoIn (q : BitVec 2) : readsIn (.txnNorsp q) = true → InWindow s := fun h => nomatch h
  refine ⟨by decide, fun hst => ?_, fun hst q hq => ?_, raises_protoTag rfl htxn (hnoIn 3)⟩
  · have hacc : s.txn.state ∈ [TxnState.requestSet, .timedOut] := by simpa using hst
    refine ⟨fun fc rest hadu => ?_, fun q hq => ?_⟩
    · exact ⟨_, _, by rw [exec_eq, perform_done (bodyOf_txnNorsp_tcp htxn hacc hadu)]; rfl,
        Memory.read_writeList_zero s.outBuf _⟩
    · rcases hq with rfl | rfl
      · exact ⟨_, by rw [exec_eq, perform_done (withTxn_withProto_in .ascii htxn hacc)]; rfl⟩
      · exact ⟨_, by rw [exec_eq, perform_done (withTxn_withProto_in .rtu htxn hacc)]; rfl⟩
  · refine raises_state rfl hq htxn (hnoIn q) ?_
    rcases hst with hst | hst <;> simp [acceptedIn, hst]

/-- Settles O59: what TXN_SETREQ stored is the decoded unit+ADU, and its frame in any protocol decodes to it again. -/
theorem crossProtocolPreservation : Obligations.CrossProtocolPreservation := by
  unfold Obligations.CrossProtocolPreservation
  intro s t p1 p2 tid d h herr hdec
  obtain ⟨tid', u, adu, hdec', hlimit, htxn, hrecord⟩ := exec_txnSetreq_ok h herr
  cases hdec.symm.trans hdec'
  obtain ⟨htwo, -⟩ := length_of_decP hdec
  have hadu : adu ≠ [] := by
    rintro rfl
    exact absurd htwo (by simp)
  have hmax : (u :: adu).length ≤ 256 := Nat.succ_le_succ (hlimit.trans (aduLimit_le p1))
  obtain ⟨id2, hdec2, hid2⟩ := decP_frameOf s.cfg.asciiLower t.txn.seq p2 htwo hmax
  obtain ⟨-, -, hrender, -⟩ := storedAduIsRendered t p2 htxn
  have hout := hrender (by simp [hrecord]) (by simpa [hrecord] using hadu)
  have hstored : t.txn.unit :: t.txn.reqAdu = u :: adu := by simp [hrecord]
  rw [hstored] at hout
  exact ⟨_, id2, encP_ok t.txn.seq p2 htwo, hout, hdec2, hid2⟩

/-- Settles O53: the record is set to its defaults, or its transaction id to the first two bytes of IN. -/
theorem clearAndSetseqResult : Obligations.ClearAndSetseqResult := by
  unfold Obligations.ClearAndSetseqResult
  intro s htxn
  have hclear : bodyOf .txnClear s.clearOutputs = .done (s.clearOutputs.setTxn TxnRecord.reset) :=
    withTxn_has (b := fun s => .done (s.setTxn TxnRecord.reset)) (s := s.clearOutputs) htxn
  refine ⟨rfl, rfl, completesTxn_of_body hclear, fun hin => ?_, raises_inlen_of_withTxn rfl htxn⟩
  have hbody : bodyOf .txnSetseq s.clearOutputs =
      .done (s.clearOutputs.readIn.setTxn { s.txn with seq := pad2 s.inBytes }) :=
    (withTxn_has (s := s.clearOutputs) htxn).trans (withIn_in (s.inBound_iff.2 hin))
  refine ⟨_, _, completesTxn_of_body hbody, fun hx => ?_, fun a hx => ?_, fun a b rest hx => ?_⟩ <;>
    rw [hx] <;> exact ⟨rfl, rfl⟩

end Sys2Proof.Claims

/-! # The rules of 60_exceptions: what a failed command leaves, the check of the window IN, the order of the checks

A body that raises CRC has noted the table first (`crcBuilds_bodyOf`), so the rollback leaves TBL_BUILT set. A command that
does not read IN passes the window and IN_BUF through (`ignoresInput_bodyOf`). -/

namespace Sys2Proof.Machine

/-! ### A CRC mismatch comes from a computed CRC (R47, R355) -/

/-- Only the check CRC has REASON 0x11 (R352). -/
theorem Reason.eq_crc_of_code {r : Reason} (h : r.code = 0x11) : r = .crc := by
  cases r with
  | crc => rfl
  | _ => exact absurd h (by decide)

/-- An encoder can fail for one reason: too few bytes (R182, R221, R261). -/
theorem encP_error {id : Byte × Byte} {p : Protocol} {d : List Byte} {e : Reason} (h : encP id p d = .error e) :
    e = .short := by
  rcases Nat.lt_or_ge d.length 2 with hd | hd
  · have hshort : encP id p d = .error .short := by
      cases p with
      | ascii => exact asciiEnc_short hd
      | rtu => exact rtuEnc_short hd
      | tcp => exact tcpEnc_short id hd
    exact Except.error.inj (h.symm.trans hshort)
  · cases h.symm.trans (encP_ok id p hd)

/-- An encoder finds no CRC mismatch. -/
theorem encP_ne_crc (id : Byte × Byte) (p : Protocol) (d : List Byte) : encP id p d ≠ .error .crc :=
  fun h => nomatch encP_error h

theorem tcpEnc_ne_crc (id : Byte × Byte) (d : List Byte) : tcpEnc id d ≠ .error .crc := encP_ne_crc id .tcp d

theorem asciiDec_ne_crc (lower : Bool) (f : List Byte) : asciiDec lower f ≠ .error .crc :=
  fun h => absurd (error_mem_of_asciiDec h) (by decide)

theorem lrc_ne_crc (f : List Byte) : lrc f ≠ .error .crc := by
  unfold lrc
  split_ifs <;> exact fun h => nomatch h

theorem crc16_ne_crc (f : List Byte) (seed : Half) : crc16 f seed ≠ .error .crc := by
  unfold crc16
  split_ifs <;> exact fun h => nomatch h

theorem tcpDec_ne_crc (f : List Byte) : tcpDec f ≠ .error .crc := by
  intro h
  unfold tcpDec at h
  split at h
  · cases h
    exact tcpValid_ne_crc f none none ‹_›
  · cases h

theorem rtuDecBuilds_of_crc {f : List Byte} (h : rtuDec f = .error .crc) : rtuDecBuilds f = true :=
  decBuilds_of_crc (lower := false) (p := .rtu) (by rw [decP, h])

/-- A body that raises CRC has TBL_BUILT set when it does. -/
def Body.CrcBuilds (b : Body) : Prop := ∀ s t, b s = .raise .crc t → t.tblBuilt = true

theorem crcBuilds_withBound {b : Body} (h : b.CrcBuilds) : Body.CrcBuilds (withBound b) := by
  intro s t ht
  unfold withBound at ht
  split at ht
  · exact h s t ht
  · cases ht

theorem crcBuilds_withIn {b : List Byte → Body} (h : ∀ f, (b f).CrcBuilds) : Body.CrcBuilds (withIn b) :=
  crcBuilds_withBound fun s => h s.inBytes s.readIn

theorem crcBuilds_withTxn {b : Body} (h : b.CrcBuilds) : Body.CrcBuilds (withTxn b) := by
  intro s t ht
  unfold withTxn at ht
  split at ht
  · exact h s t ht
  · cases ht

theorem crcBuilds_withProto {q : BitVec 2} {acc : List TxnState} {b : Protocol → Body} (h : ∀ p, (b p).CrcBuilds) :
    Body.CrcBuilds (withProto q acc b) := by
  intro s t ht
  unfold withProto at ht
  split at ht
  · cases ht
  · split at ht
    · exact h _ s t ht
    · cases ht

/-- A codec's CRC mismatch is raised in the state in which the codec's CRC was noted. -/
theorem tblBuilt_of_outOrRaise_crc {r : Except Reason (List Byte)} {s t : State}
    (hr : r = .error .crc → s.tblBuilt = true) (h : outOrRaise r s = .raise .crc t) : t.tblBuilt = true := by
  unfold outOrRaise at h
  split at h
  · cases h
    exact hr rfl
  · cases h

theorem crcBuilds_outOrRaise {r : Except Reason (List Byte)} (hr : r ≠ .error .crc) : Body.CrcBuilds (outOrRaise r) :=
  fun _ _ => tblBuilt_of_outOrRaise_crc fun h => absurd h hr

theorem crcBuilds_framer (scan : List Byte → Scan) :
    Body.CrcBuilds (withIn (fun b s => .done (s.setFrames s.opnd.inOfs.toNat b (scan b)))) :=
  crcBuilds_withIn fun _ _ _ h => nomatch h

theorem crcBuilds_storeRequest (p : Protocol) (f : List Byte) : Body.CrcBuilds (storeRequest p f) := by
  intro s t h
  unfold storeRequest at h
  split at h
  · cases h
    rw [State.noteTable_tblBuilt, decBuilds_of_crc ‹_›, Bool.or_true]
  · dsimp only at h
    split_ifs at h
    cases h

theorem crcBuilds_renderAdu (p : Protocol) (adu : List Byte) : Body.CrcBuilds (renderAdu p adu) :=
  fun s => crcBuilds_outOrRaise (encP_ne_crc _ _ _) (s.noteTable _)

theorem crcBuilds_storeResponse (p : Protocol) (d : List Byte) : Body.CrcBuilds (storeResponse p d) := by
  intro s t h
  unfold storeResponse at h
  dsimp only at h
  split_ifs at h
  cases h

theorem crcBuilds_setrspTcp (f : List Byte) : Body.CrcBuilds (setrspTcp f) := by
  intro s t h
  unfold setrspTcp at h
  split at h
  · cases h
    exact absurd ‹_› (tcpValid_ne_crc _ _ _)
  · exact crcBuilds_storeResponse _ _ _ t h

theorem crcBuilds_setrspSerial (p : Protocol) (f : List Byte) : Body.CrcBuilds (setrspSerial p f) := by
  intro s t h
  unfold setrspSerial at h
  split at h
  · cases h
    rw [State.noteTable_tblBuilt, decBuilds_of_crc ‹_›, Bool.or_true]
  · dsimp only at h
    split_ifs at h
    · cases h
    · exact crcBuilds_storeResponse _ _ _ t h

/-- Every command that raises CRC has computed one: RTU_DEC, and the TXN commands that decode RTU (R223, R308, R312). -/
theorem crcBuilds_bodyOf (i : Instr) : (bodyOf i).CrcBuilds := by
  cases i with
  | lrc =>
    unfold bodyOf bodyLrc
    refine crcBuilds_withIn fun f s t h => ?_
    split at h <;> cases h
    exact absurd ‹_› (lrc_ne_crc f)
  | crc16 =>
    unfold bodyOf bodyCrc16
    refine crcBuilds_withIn fun f s t h => ?_
    split at h <;> cases h
    exact absurd ‹_› (crc16_ne_crc f _)
  | crctab => exact fun s t h => nomatch h
  | asciiEnc => exact crcBuilds_withIn fun f => crcBuilds_outOrRaise (encP_ne_crc (0, 0) .ascii f)
  | asciiDec =>
    unfold bodyOf bodyAsciiDec
    exact crcBuilds_withIn fun f s => crcBuilds_outOrRaise (asciiDec_ne_crc _ f) s
  | asciiFrame => exact crcBuilds_framer _
  | rtuEnc =>
    unfold bodyOf bodyRtuEnc
    exact crcBuilds_withIn fun f s => crcBuilds_outOrRaise (encP_ne_crc (0, 0) .rtu f) (s.noteTable _)
  | rtuDec =>
    unfold bodyOf bodyRtuDec
    refine crcBuilds_withIn fun f s t => tblBuilt_of_outOrRaise_crc fun hcrc => ?_
    rw [State.noteTable_tblBuilt, rtuDecBuilds_of_crc hcrc, Bool.or_true]
  | rtuEst req =>
    unfold bodyOf bodyRtuEst
    refine crcBuilds_withIn fun f s t h => ?_
    split at h <;> cases h
  | rtuFrame req => exact crcBuilds_framer _
  | tcpEnc =>
    unfold bodyOf bodyTcpEnc
    exact crcBuilds_withIn fun f s => crcBuilds_outOrRaise (tcpEnc_ne_crc _ f) s
  | tcpValid xseq xunit =>
    unfold bodyOf bodyTcpValid
    refine crcBuilds_withIn fun f s t h => ?_
    split at h <;> cases h
    exact absurd ‹_› (tcpValid_ne_crc f _ _)
  | tcpDec =>
    unfold bodyOf bodyTcpDec
    refine crcBuilds_withIn fun f s t h => ?_
    split at h <;> cases h
    exact absurd ‹_› (tcpDec_ne_crc f)
  | tcpFrame => exact crcBuilds_framer _
  | txnClear => exact crcBuilds_withTxn fun s t h => nomatch h
  | txnSetseq =>
    unfold bodyOf bodyTxnSetseq
    exact crcBuilds_withTxn (crcBuilds_withIn fun f s t h => nomatch h)
  | txnSetreq q =>
    unfold bodyOf bodyTxnSetreq
    exact crcBuilds_withTxn (crcBuilds_withBound (crcBuilds_withProto fun p s => crcBuilds_storeRequest p _ s.readIn))
  | txnGetreq q =>
    unfold bodyOf bodyTxnGetreq
    exact crcBuilds_withTxn (crcBuilds_withProto fun p s => crcBuilds_renderAdu p _ s)
  | txnSetrsp q =>
    unfold bodyOf bodyTxnSetrsp
    refine crcBuilds_withTxn (crcBuilds_withBound (crcBuilds_withProto fun p s => ?_))
    cases p with
    | ascii => exact crcBuilds_setrspSerial .ascii _ s.readIn
    | rtu => exact crcBuilds_setrspSerial .rtu _ s.readIn
    | tcp => exact crcBuilds_setrspTcp _ s.readIn
  | txnGetrsp q =>
    unfold bodyOf bodyTxnGetrsp
    exact crcBuilds_withTxn (crcBuilds_withProto fun p s => crcBuilds_renderAdu p _ s)
  | txnNorsp q =>
    unfold bodyOf bodyTxnNorsp
    refine crcBuilds_withTxn (crcBuilds_withProto fun p s t h => ?_)
    cases p with
    | ascii => cases h
    | rtu => cases h
    | tcp => exact crcBuilds_outOrRaise (tcpEnc_ne_crc _ _) _ t h

/-! ### The commands that do not read IN (R353) -/

/-- Replaces IN_LEN, IN_OFS and IN_BUF (R34). -/
def State.setInput (len ofs : Half) (m : Memory Byte) (s : State) : State :=
  { s with inBuf := m, opnd := { s.opnd with inLen := len, inOfs := ofs } }

@[simp] theorem State.setInput_cfg (len ofs : Half) (m : Memory Byte) (s : State) : (s.setInput len ofs m).cfg = s.cfg := rfl
@[simp] theorem State.setInput_txn (len ofs : Half) (m : Memory Byte) (s : State) : (s.setInput len ofs m).txn = s.txn := rfl

/-- A body does the same whatever IN_LEN, IN_OFS and IN_BUF hold, and passes them through. -/
def Body.IgnoresInput (b : Body) : Prop :=
  ∀ len ofs m s, b (s.setInput len ofs m) = (b s).map (State.setInput len ofs m)

theorem ignoresInput_withTxn {b : Body} (h : b.IgnoresInput) : Body.IgnoresInput (withTxn b) := by
  intro len ofs m s
  cases htxn : s.cfg.hasTxn with
  | true => rw [withTxn_has htxn, withTxn_has (s := s.setInput len ofs m) htxn, h]
  | false => rw [withTxn_none htxn, withTxn_none (s := s.setInput len ofs m) htxn]; rfl

theorem ignoresInput_withProto (q : BitVec 2) (acc : List TxnState) {b : Protocol → Body} (h : ∀ p, (b p).IgnoresInput) :
    Body.IgnoresInput (withProto q acc b) := by
  intro len ofs m s
  unfold withProto
  cases protocolOf q with
  | none => rfl
  | some p =>
    rw [State.setInput_txn]
    dsimp only
    split_ifs
    · exact h p len ofs m s
    · rfl

theorem ignoresInput_outOrRaise (r : Except Reason (List Byte)) : Body.IgnoresInput (outOrRaise r) := by
  intro len ofs m s
  cases r <;> rfl

theorem ignoresInput_renderAdu (p : Protocol) (adu : List Byte) : Body.IgnoresInput (renderAdu p adu) :=
  fun len ofs m s => ignoresInput_outOrRaise _ len ofs m (s.noteTable _)

/-- CRCTAB, TXN_CLEAR, TXN_GETREQ, TXN_GETRSP and TXN_NORSP neither read IN nor check its window (R353). -/
theorem ignoresInput_bodyOf {i : Instr} (hi : Claims.readsIn i = false) : (bodyOf i).IgnoresInput := by
  cases i with
  | crctab => exact fun _ _ _ _ => rfl
  | txnClear => exact ignoresInput_withTxn fun _ _ _ _ => rfl
  | txnGetreq q =>
    unfold bodyOf bodyTxnGetreq
    exact ignoresInput_withTxn (ignoresInput_withProto _ _ fun p len ofs m s =>
      ignoresInput_renderAdu p s.txn.reqAdu len ofs m s)
  | txnGetrsp q =>
    unfold bodyOf bodyTxnGetrsp
    exact ignoresInput_withTxn (ignoresInput_withProto _ _ fun p len ofs m s =>
      ignoresInput_renderAdu p s.txn.rspAdu len ofs m s)
  | txnNorsp q =>
    unfold bodyOf bodyTxnNorsp
    refine ignoresInput_withTxn (ignoresInput_withProto _ _ fun p len ofs m s => ?_)
    cases p with
    | ascii => rfl
    | rtu => rfl
    | tcp => exact (ignoresInput_outOrRaise _ len ofs m ((s.setTxn { s.txn with state := .timedOut }).tick 1) :)
  | _ => cases hi

/-- The prologue, the epilogue and the posting of an error pass the input through as the body does (R355). -/
theorem perform_setInput {b : Body} (h : b.IgnoresInput) (len ofs : Half) (m : Memory Byte) (s : State) :
    perform b (s.setInput len ofs m) = (perform b s).setInput len ofs m := by
  have hbody := h len ofs m s.clearOutputs
  cases hb : b s.clearOutputs <;> rw [hb] at hbody
  · rw [perform_done hb, perform_done (s := s.setInput len ofs m) hbody]; rfl
  · rw [perform_raise hb, perform_raise (s := s.setInput len ofs m) hbody]; rfl

/-! ### The order of the checks (R354) -/

/-- A command of the TXN unit checks first that the block has the unit (R117). -/
theorem exists_bodyOf_eq_withTxn {i : Instr} (hi : i.isTxn = true) : ∃ b, bodyOf i = withTxn b := by
  cases i with
  | txnClear | txnSetseq | txnSetreq | txnGetreq | txnSetrsp | txnGetrsp | txnNorsp => exact ⟨_, rfl⟩
  | _ => cases hi

/-- A command that the block does not have raises BadCommand(OPCODE), by the model's choice (log 9). -/
theorem raises_opcode {i : Instr} {s : State} (hwf : i.wf s.cfg.hasTxn = false) :
    Claims.Raises i s 5 0x40 Claims.MayBuild := by
  obtain ⟨hnot, htxn⟩ := Bool.or_eq_false_iff.1 hwf
  obtain ⟨b, hb⟩ := exists_bodyOf_eq_withTxn ((Bool.not_eq_false' _).mp hnot)
  have hbody : bodyOf i s.clearOutputs = .raise .opcode s.clearOutputs := by
    rw [hb]
    exact withTxn_none htxn
  exact raises_of_body hbody rfl

/-- A command of the block that reads IN checks the window before all else (R353). -/
theorem raises_inlen {i : Instr} {s : State} (hwf : i.wf s.cfg.hasTxn = true) (hreads : Claims.readsIn i = true)
    (hin : ¬Claims.InWindow s) : Claims.Raises i s 1 0x0B Claims.MayBuild := by
  cases i with
  | txnSetseq | txnSetreq | txnSetrsp => exact raises_inlen_of_withTxn rfl hwf hin
  | crctab | txnClear | txnGetreq | txnGetrsp | txnNorsp => cases hreads
  | _ => exact raises_of_not_inWindow (by dsimp only [bodyOf]; rfl) hin

end Sys2Proof.Machine

namespace Sys2Proof.Claims

open Sys2Proof.Machine

/-- Settles O8: a raise restores all but TBL_BUILT and the draws, no command loses TBL_BUILT, and a body that raises CRC has
set it. -/
theorem failedCommandWritesOnlyStatus : Obligations.FailedCommandWritesOnlyStatus := by
  unfold Obligations.FailedCommandWritesOnlyStatus
  intro i s t h herr
  obtain ⟨-, -, -, -, -, htable⟩ := perform_keeps (keeps_bodyOf i) s
  rw [← exec_next h] at htable
  rcases exec_cases h with ⟨u, -, -, hok⟩ | ⟨r, u, hbody, -, rfl⟩
  · exact absurd hok herr
  · refine ⟨rfl, htable, fun hreason => ?_⟩
    rw [Reason.eq_crc_of_code hreason] at hbody
    exact Bool.or_eq_true_iff.2 (.inl (crcBuilds_bodyOf i _ u hbody))

/-- Settles O10: the window is checked first, and the body of a command that does not read IN passes the input through. -/
theorem inputBoundCheck : Obligations.InputBoundCheck := by
  unfold Obligations.InputBoundCheck
  intro i s hwf
  refine ⟨raises_inlen hwf, fun hreads len ofs m t h => ?_⟩
  obtain ⟨-, -, hopnd, -⟩ := perform_keeps (keeps_bodyOf i) s
  have hinput := perform_setInput (ignoresInput_bodyOf hreads) len ofs m s
  rw [State.setInput, State.setInput, hopnd] at hinput
  rw [exec_next h]
  exact (exec_eq i _).trans (congrArg _ hinput)

/-- Settles O11: a command with PROTO comes to its check of PROTO and then to that of the record's state; a command without
PROTO is accepted in every state. -/
theorem errorPrecedence : Obligations.ErrorPrecedence := by
  unfold Obligations.ErrorPrecedence
  intro i s
  refine ⟨raises_opcode, fun hwf hin hi => raises_protoTag hi (hasTxn_of_protoOf hi hwf) hin,
    fun hwf hin hproto hst => ?_⟩
  cases hi : protoOf i with
  | none => exact absurd (mem_acceptedIn_of_protoOf_none hi _) hst
  | some q =>
    have hq : q ≠ 3 := fun hq => hproto (hi.trans (congrArg some hq))
    exact raises_state hi hq (hasTxn_of_protoOf hi hwf) hin hst

end Sys2Proof.Claims

/-! # The rules of 70_reset_and_hazards: the reset event, the issue of a command, hazards, the owner of the record, and the
end of a run -/

namespace Sys2Proof.Machine

/-! ### Hazards (R386) -/

/-- A write that its address serves is a HazardFault while BUSY = 1, and nothing else changes. -/
theorem hostAccess_hazard {s : State} {x : Access} (h : Served s.cfg (Claims.addrOf x) .write (Claims.widthOf x))
    (hx : Claims.dirOf x = .write) (hp : s.pending = true) :
    hostAccess x s = Claims.replied s (.fault (.hazardFault (Claims.addrOf x) .write (Claims.widthOf x))) := by
  obtain ⟨l, hl, hserves⟩ := h
  cases x with
  | readByte a => cases hx
  | readWord a => cases hx
  | writeByte a b =>
    cases l with
    | inByte i =>
      simp only [hostAccess, hostWriteByte, show locate s.cfg a = some (.inByte i) from hl]
      exact if_pos hp
    | reg r => cases hserves
    | outByte i => cases hserves
    | desc k => cases hserves
  | writeWord a v =>
    cases l with
    | reg r =>
      simp only [hostAccess, hostWriteWord, show locate s.cfg a = some (.reg r) from hl]
      exact (if_pos hserves).trans (if_pos hp)
    | inByte i => cases hserves
    | outByte i => cases hserves
    | desc k => cases hserves

/-! ### Who writes the record (R389) -/

/-- A command that changes the record is of the TXN unit and has succeeded. -/
theorem success_of_exec_txn_ne {i : Instr} {s t : State} (h : exec i s = .next t) (hne : t.txn ≠ s.txn) :
    t.status.err = 0 ∧ i.isTxn = true := by
  rcases exec_cases h with ⟨u, hdone, rfl, herr⟩ | ⟨r, u, -, -, rfl⟩
  · refine ⟨herr, Bool.of_not_eq_false fun hi => hne ?_⟩
    exact keepsTxn_bodyOf hi s.clearOutputs u hdone
  · exact absurd rfl hne

/-- An engine's turn that changes the record ran a TXN command that succeeded: an idle turn and an illegal word change
nothing of it. -/
theorem success_of_engineTurn_txn_ne {s t : State} (h : engineTurn s = .next t) (hne : t.txn ≠ s.txn) :
    s.pending = true ∧ t.status.err = 0 ∧ ∃ i, i.isTxn = true ∧ decode s.cfg.hasTxn s.cmd = .ok i := by
  rcases engineTurn_cases h with ⟨-, rfl⟩ | ⟨hp, ⟨e, -, rfl⟩ | ⟨i, hdecode, hexec⟩⟩
  · exact absurd rfl hne
  · exact absurd rfl hne
  · obtain ⟨herr, hi⟩ := success_of_exec_txn_ne hexec hne
    exact ⟨hp, herr, i, hi, hdecode⟩

/-! ### Who reads the record (R389) -/

/-- A body does the same whatever the record holds, and passes it through. -/
def Body.IgnoresTxn (b : Body) : Prop := ∀ r s, b (s.setTxn r) = (b s).map (fun t => t.setTxn r)

theorem ignoresTxn_withIn {b : List Byte → Body} (h : ∀ f, (b f).IgnoresTxn) : Body.IgnoresTxn (withIn b) := by
  intro r s
  cases hin : s.inBound with
  | true => rw [withIn_in hin, withIn_in (s := s.setTxn r) hin]; exact h s.inBytes r s.readIn
  | false => rw [withIn_out hin, withIn_out (s := s.setTxn r) hin]; rfl

theorem ignoresTxn_outOrRaise (x : Except Reason (List Byte)) : Body.IgnoresTxn (outOrRaise x) := by
  intro r s
  cases x <;> rfl

/-- A framer (R190, R232, R275). -/
theorem ignoresTxn_framer (scan : List Byte → Scan) :
    Body.IgnoresTxn (withIn (fun b s => .done (s.setFrames s.opnd.inOfs.toNat b (scan b)))) :=
  ignoresTxn_withIn fun _ _ _ => rfl

/-- A command outside the TXN unit does not read the record. -/
theorem ignoresTxn_bodyOf {i : Instr} (hi : i.isTxn = false) : (bodyOf i).IgnoresTxn := by
  cases i with
  | lrc =>
    unfold bodyOf bodyLrc
    refine ignoresTxn_withIn fun f r s => ?_
    cases lrc f <;> rfl
  | crc16 =>
    unfold bodyOf bodyCrc16
    refine ignoresTxn_withIn fun f r s => ?_
    rw [State.setTxn_opnd]
    cases crc16 f s.opnd.seed <;> rfl
  | crctab => exact fun _ _ => rfl
  | asciiEnc => exact ignoresTxn_withIn fun f => ignoresTxn_outOrRaise _
  | asciiDec =>
    unfold bodyOf bodyAsciiDec
    exact ignoresTxn_withIn fun f r s => ignoresTxn_outOrRaise _ r s
  | asciiFrame => exact ignoresTxn_framer _
  | rtuEnc =>
    unfold bodyOf bodyRtuEnc
    exact ignoresTxn_withIn fun f r s => ignoresTxn_outOrRaise _ r (s.noteTable _)
  | rtuDec =>
    unfold bodyOf bodyRtuDec
    exact ignoresTxn_withIn fun f r s => ignoresTxn_outOrRaise _ r (s.noteTable _)
  | rtuEst req =>
    unfold bodyOf bodyRtuEst
    refine ignoresTxn_withIn fun f r s => ?_
    cases estimate req f <;> rfl
  | rtuFrame req => exact ignoresTxn_framer _
  | tcpEnc =>
    unfold bodyOf bodyTcpEnc
    exact ignoresTxn_withIn fun f r s => ignoresTxn_outOrRaise (tcpEnc s.seqPair f) r s
  | tcpValid xseq xunit =>
    unfold bodyOf bodyTcpValid
    refine ignoresTxn_withIn fun f r s => ?_
    rw [show (s.setTxn r).seqPair = s.seqPair from rfl, show (s.setTxn r).xunit = s.xunit from rfl]
    cases tcpValid f (if xseq then some s.seqPair else none) (if xunit then some s.xunit else none) <;> rfl
  | tcpDec =>
    unfold bodyOf bodyTcpDec
    refine ignoresTxn_withIn fun f r s => ?_
    cases tcpDec f <;> rfl
  | tcpFrame => exact ignoresTxn_framer _
  | txnClear | txnSetseq | txnSetreq | txnGetreq | txnSetrsp | txnGetrsp | txnNorsp => cases hi

/-- The prologue, the epilogue and the posting of an error pass the record through as the body does (R355). -/
theorem perform_setTxn {b : Body} (h : b.IgnoresTxn) (r : TxnRecord) (s : State) :
    perform b (s.setTxn r) = (perform b s).setTxn r := by
  have hbody := h r s.clearOutputs
  cases hb : b s.clearOutputs <;> rw [hb] at hbody
  · rw [perform_done hb, perform_done (s := s.setTxn r) hbody]; rfl
  · rw [perform_raise hb, perform_raise (s := s.setTxn r) hbody]; rfl

/-! ### The end of a run (R383) -/

/-- The engine's turn always answers a next state, and nothing is pending in it (R385). -/
theorem exists_engineTurn (s : State) : ∃ t, engineTurn s = .next t ∧ t.pending = false := by
  cases hp : s.pending with
  | false => exact ⟨s, engineTurn_idle hp, hp⟩
  | true =>
    rw [engineTurn_pending hp]
    cases hdecode : decode s.cfg.hasTxn s.cmd with
    | error e => exact ⟨_, engineStep_error hdecode, perform_pending _ s⟩
    | ok i => exact ⟨_, (engineStep_ok hdecode).trans (exec_eq i s), perform_pending _ s⟩

/-- When no event is left, one step more and the run is over. -/
theorem exists_step_runOver {s : State} (h : s.host.events = []) : ∃ t, step s = .next t ∧ t.RunOver := by
  obtain ⟨t, ht, hp⟩ := exists_engineTurn s
  refine ⟨t, (step_nil h).trans ht, ?_, hp⟩
  rw [(engineTurn_keeps ht).1, h]
  exact fun e he => nomatch he

/-- A step takes its event off the order, whatever it is, and answers a next state (R91). -/
theorem exists_step_events {s : State} {e : Event} {rest : List Event} (h : s.host.events = e :: rest) :
    ∃ t, step s = .next t ∧ t.host.events = rest := by
  cases e with
  | access x => exact ⟨_, step_access h, (busKept_hostAccess x (s.popEvent rest)).events⟩
  | engine =>
    obtain ⟨t, ht, -⟩ := exists_engineTurn (s.popEvent rest)
    exact ⟨t, (step_engine h).trans ht, by rw [(engineTurn_keeps ht).1]; rfl⟩
  | reset => exact ⟨_, step_reset h, rfl⟩

theorem run_succ_of_step {M : Host.Core} {s t : M.State} (h : M.step s = .next t) (n : Nat) :
    M.run (n + 1) s = M.run n t := by
  simp only [Host.Core.run, h]

/-- No step stops, and one step after the last event the run is over. -/
theorem exists_run_runOver (s : State) : ∃ t, core.run (s.host.events.length + 1) s = .next t ∧ t.RunOver := by
  induction hevents : s.host.events generalizing s with
  | nil =>
    obtain ⟨t, hstep, hover⟩ := exists_step_runOver hevents
    exact ⟨t, run_succ_of_step (M := core) hstep 0, hover⟩
  | cons e rest ih =>
    obtain ⟨u, hstep, hrest⟩ := exists_step_events hevents
    obtain ⟨t, hrun, hover⟩ := ih u hrest
    exact ⟨t, (run_succ_of_step (M := core) hstep _).trans hrun, hover⟩

/-- Where a run comes to a point at which it is over, there is a first such point. -/
theorem exists_endsAfter_le {s t : State} {n : Nat} (hrun : core.run n s = .next t) (hover : t.RunOver) :
    ∃ m u, m ≤ n ∧ s.EndsAfter m u := by
  classical
  have h : ∃ m u, core.run m s = .next u ∧ State.RunOver u := ⟨n, t, hrun, hover⟩
  obtain ⟨u, hu, huover⟩ := Nat.find_spec h
  exact ⟨Nat.find h, u, Nat.find_min' h ⟨t, hrun, hover⟩, hu, huover,
    fun m v hm hv hvover => Nat.find_min h hm ⟨v, hv, hvover⟩⟩

end Sys2Proof.Machine

namespace Sys2Proof.Claims

open Sys2Proof.Machine

/-- Settles O6: the order of events runs out, one step more leaves nothing pending, and the first such point is the end. -/
theorem everyRunComesToItsEnd : Obligations.EveryRunComesToItsEnd := by
  unfold Obligations.EveryRunComesToItsEnd
  intro s
  obtain ⟨t, hrun, hover⟩ := exists_run_runOver s
  exact exists_endsAfter_le hrun hover

/-- Settles O13: no host access writes the record, and the body of a command outside the TXN unit passes it through. -/
theorem recordIsTheTxnUnitsOwn : Obligations.RecordIsTheTxnUnitsOwn := by
  unfold Obligations.RecordIsTheTxnUnitsOwn
  refine ⟨fun s t h hne => ?_, fun i s t r hi h => ⟨?_, ?_⟩⟩
  · rcases step_cases h with ⟨x, rest, -, rfl⟩ | ⟨rest, he, -⟩ | ⟨rest, -, ht⟩
    · exact absurd (busKept_hostAccess x (s.popEvent rest)).txn hne
    · exact .inl (by rw [he]; rfl)
    · exact .inr (success_of_engineTurn_txn_ne (s := s.popEvent rest) ht hne)
  · by_contra hne
    rw [(success_of_exec_txn_ne h hne).2] at hi
    cases hi
  · rw [exec_next h]
    exact (exec_eq i _).trans (congrArg _ (perform_setTxn (ignoresTxn_bodyOf hi) r s))

/-- Settles O20: an admitted write finds a location that serves it, and BUSY = 1 makes it a hazard; an unadmitted one finds
none (O19). -/
theorem pendingOperandWriteIsHazard : Obligations.PendingOperandWriteIsHazard := by
  unfold Obligations.PendingOperandWriteIsHazard
  intro s x hc hx
  refine ⟨fun hp hadm => hostAccess_hazard (hx ▸ (served_iff_admitted hc x).2 hadm) hx hp, fun hadm => ?_⟩
  rw [unadmittedAccessFaults s x hc hadm, hx]

/-- Settles O16: the state after reset is what a reset event makes of it, under the legal default parameters. -/
theorem resetMeetsInvariant : Obligations.ResetMeetsInvariant := by
  unfold Obligations.ResetMeetsInvariant
  have hvalid : Config.default.Valid := by decide
  exact inv_resetBlock (s := State.reset) hvalid

/-- Settles O21: CMD lies at word 0 of the register region, and a write there issues the command. -/
theorem cmdWriteIssues : Obligations.CmdWriteIssues := by
  unfold Obligations.CmdWriteIssues
  exact fun s w hp => writeReg_at 0 w rfl rfl hp

/-- Settles O29: the state a reset event leaves has each element at the value of the table. -/
theorem resetEventSetsTheTable : Obligations.ResetEventSetsTheTable := by
  unfold Obligations.ResetEventSetsTheTable
  exact fun s rest h => ⟨(s.popEvent rest).resetBlock, step_reset h, rfl, rfl, rfl, rfl, rfl, rfl, rfl,
    fun _ => ⟨rfl, rfl, rfl⟩, rfl, rfl, rfl, rfl⟩

end Sys2Proof.Claims
